-- ==== Sys2Proof/Word.lean ====
section
/-!
DEFINITION. The word types of the engine (`00_scope.md` R12, `30_encoding.md` R90): bytes, and the
16-bit microwords of format U. Everything is unsigned.
-/

namespace Sys2Proof

/-- A byte: 8 bits, bit 7 the most significant (`00_scope.md` R12). -/
abbrev Byte := BitVec 8

/-- A format U word: class, operation, operand byte (`30_encoding.md` R94). -/
abbrev MicroWord := BitVec 16

/-- A level of a wire or of an output latch: `false` is `low` (code 0), `true` is `high` (code 1)
(`00_scope.md` R13). It is one bit, the bit `TXB[n]` drives and the bit a sample stores. -/
abbrev Level := Bool

end Sys2Proof
end

