-- ==== Sys2Proof/Syntax.lean ====
section
/-!
DEFINITION. The operations of the engine: one constructor per row of `spec/opcode_table.json`
(`30_encoding.md` R92, R95, R98, R99), with the operands as the encoding carries them. Fields whose
every code is legal are typed; the three that have reserved codes keep their bits and are checked in
`WellFormed.lean`.
-/

namespace Sys2Proof

/-- A line: `SCL` is code 0, `SDA` is code 1 (`00_scope.md` R13, `30_encoding.md` R96). -/
inductive Line where
  | scl
  | sda
  deriving DecidableEq, Repr

/-- A direction: `in` is code 0, high-impedance; `out` is code 1, driven (`00_scope.md` R13). -/
inductive Dir where
  | input
  | output
  deriving DecidableEq, Repr

/-- The 22 operations. -/
inductive Instr where
  /-- `ACQUIRE` (`44_host_commands.md` R218). -/
  | acquire
  /-- `RELEASE` (R220). -/
  | release
  /-- `READ` (R222, R223). -/
  | read
  /-- `WRITE` (R224). -/
  | write
  /-- `SETDIR L, d` (`40_line_and_timing_primitives.md` R121). -/
  | setdir (line : Line) (dir : Dir)
  /-- `SETLVL L, v` (R122, R123). -/
  | setlvl (line : Line) (level : Level)
  /-- `GETLVL L` (R124). -/
  | getlvl (line : Line)
  /-- `DELAY c`, with `c` the duration code (R125, `30_encoding.md` R97). -/
  | delay (c : BitVec 2)
  /-- `WBIT n` (`41_bit_byte_transfer.md` R141). -/
  | wbit (n : BitVec 3)
  /-- `WBYTE sel` (R143, `30_encoding.md` R106). -/
  | wbyte (sel : BitVec 2)
  /-- `RBIT k, n` (R144). -/
  | rbit (k : BitVec 3) (n : BitVec 3)
  /-- `RBYTE k` (R145). -/
  | rbyte (k : BitVec 3)
  /-- `IDLECHK` (`42_transaction_sequencer.md` R163). -/
  | idlechk
  /-- `START` (R165). -/
  | start
  /-- `ACKW` (R168). -/
  | ackw
  /-- `RESTART` (R170). -/
  | restart
  /-- `SACK` (R172). -/
  | sack
  /-- `SNAK` (R174). -/
  | snak
  /-- `STOP` (R175). -/
  | stop
  /-- `RELLN` (R176). -/
  | relln
  /-- `VALIDATE` (`43_checksum_and_reading.md` R200). -/
  | validate
  /-- `FAIL` (`42_transaction_sequencer.md` R177). -/
  | fail
  deriving DecidableEq, Repr

end Sys2Proof
end

