-- ==== Sys2Proof/WellFormed.lean ====
section
/-!
DEFINITION. Well-formed operations: no operand holds a reserved code (`30_encoding.md` R97, R100,
R106).
-/

namespace Sys2Proof

/-- R100: `c = 3`, `sel = 3` and `k > 4` are reserved; every other operand code is legal. -/
def Instr.wf : Instr → Bool
  | .acquire => true
  | .release => true
  | .read => true
  | .write => true
  | .setdir _ _ => true
  | .setlvl _ _ => true
  | .getlvl _ => true
  | .delay c => decide (c ≠ 3#2)
  | .wbit _ => true
  | .wbyte sel => decide (sel ≠ 3#2)
  | .rbit k _ => decide (k.toNat ≤ 4)
  | .rbyte k => decide (k.toNat ≤ 4)
  | .idlechk => true
  | .start => true
  | .ackw => true
  | .restart => true
  | .sack => true
  | .snak => true
  | .stop => true
  | .relln => true
  | .validate => true
  | .fail => true

end Sys2Proof
end

