-- ==== Sys2Proof/Decode.lean ====
section
/-!
DEFINITION. Decoding and encoding of both formats: the command byte (format H) and the microword
(format U), from `30_encoding.md` R91 to R100 and R106. Decoding is total and rejects by name.
-/

namespace Sys2Proof

/-- Why a byte or a word is no operation (`30_encoding.md` R93, R100). -/
inductive DecodeError where
  /-- A command byte other than `0x01` to `0x04` (R93). -/
  | reservedCommand
  /-- The opcode byte is none of the eighteen of R95, R98, R99 (R100). -/
  | unknownOp
  /-- A bit of the operand byte that the tables leave unused is 1 (R100). -/
  | unusedArgBit
  /-- `c = 3`, `sel = 3` or `k > 4` (R100). -/
  | reservedOperand
  deriving DecidableEq, Repr

/-- An encoded operation: a command byte, or a microword (R90). -/
inductive Code where
  | host (b : Byte)
  | micro (w : MicroWord)
  deriving DecidableEq, Repr

/-- The line a one-bit field names (R96). -/
def lineOf (b : Bool) : Line := if b then .sda else .scl

/-- The direction a one-bit field names (R96). -/
def dirOf (b : Bool) : Dir := if b then .output else .input

/-- The code of a line (R96). -/
def Line.code : Line → Bool
  | .scl => false
  | .sda => true

/-- The code of a direction (R96). -/
def Dir.code : Dir → Bool
  | .input => false
  | .output => true

/-- The opcode byte, bits 15..8: class and operation (R94). -/
def opOf (w : MicroWord) : Byte := w.extractLsb' 8 8

/-- The operand byte, bits 7..0 (R94). -/
def argOf (w : MicroWord) : Byte := w.extractLsb' 0 8

/-- A format H byte (R92); every other byte is reserved (R93). -/
def decodeHost (b : Byte) : Except DecodeError Instr :=
  if b = 0x01#8 then .ok .acquire
  else if b = 0x02#8 then .ok .release
  else if b = 0x03#8 then .ok .read
  else if b = 0x04#8 then .ok .write
  else .error .reservedCommand

/-- The operation `i` read from an operand byte of which only the bits of `used` may be set, and no
operand may hold a reserved code (R100). -/
def operand (arg used : Byte) (i : Instr) : Except DecodeError Instr :=
  if arg &&& ~~~used ≠ 0#8 then .error .unusedArgBit
  else if i.wf then .ok i
  else .error .reservedOperand

/-- A format U word, by its opcode byte (R95, R98, R99). -/
def decodeMicro (w : MicroWord) : Except DecodeError Instr :=
  let op := opOf w
  let arg := argOf w
  if op = 0x10#8 then operand arg 0x03#8 (.setdir (lineOf (arg.getLsbD 1)) (dirOf (arg.getLsbD 0)))
  else if op = 0x11#8 then operand arg 0x03#8 (.setlvl (lineOf (arg.getLsbD 1)) (arg.getLsbD 0))
  else if op = 0x12#8 then operand arg 0x02#8 (.getlvl (lineOf (arg.getLsbD 1)))
  else if op = 0x13#8 then operand arg 0x03#8 (.delay (arg.extractLsb' 0 2))
  else if op = 0x20#8 then operand arg 0x07#8 (.wbit (arg.extractLsb' 0 3))
  else if op = 0x21#8 then operand arg 0x03#8 (.wbyte (arg.extractLsb' 0 2))
  else if op = 0x22#8 then operand arg 0x77#8 (.rbit (arg.extractLsb' 4 3) (arg.extractLsb' 0 3))
  else if op = 0x23#8 then operand arg 0x07#8 (.rbyte (arg.extractLsb' 0 3))
  else if op = 0x30#8 then operand arg 0x00#8 .idlechk
  else if op = 0x31#8 then operand arg 0x00#8 .start
  else if op = 0x32#8 then operand arg 0x00#8 .ackw
  else if op = 0x33#8 then operand arg 0x00#8 .restart
  else if op = 0x34#8 then operand arg 0x00#8 .sack
  else if op = 0x35#8 then operand arg 0x00#8 .snak
  else if op = 0x36#8 then operand arg 0x00#8 .stop
  else if op = 0x37#8 then operand arg 0x00#8 .relln
  else if op = 0x38#8 then operand arg 0x00#8 .validate
  else if op = 0x39#8 then operand arg 0x00#8 .fail
  else .error .unknownOp

/-- Either format. -/
def decode : Code → Except DecodeError Instr
  | .host b => decodeHost b
  | .micro w => decodeMicro w

/-- The instruction an opcode-table row's bits decode to: an 8-bit row is a command byte, a 16-bit
row a microword; no other length exists (R90). -/
def decodeTableWord (nbits w : Nat) : Option Instr :=
  if nbits = 8 then
    if w < 2 ^ 8 then (decodeHost (BitVec.ofNat 8 w)).toOption else none
  else if nbits = 16 then
    if w < 2 ^ 16 then (decodeMicro (BitVec.ofNat 16 w)).toOption else none
  else none

/-- A microword from its opcode byte and its operand byte (R94). -/
def microWord (op arg : Byte) : MicroWord := op ++ arg

/-- A one-bit field. -/
def bit (b : Bool) : BitVec 1 := BitVec.ofBool b

/-- The encoding of an operation (R92, R95, R98, R99): the unused bits of the operand byte are 0. -/
def encode : Instr → Code
  | .acquire => .host 0x01#8
  | .release => .host 0x02#8
  | .read => .host 0x03#8
  | .write => .host 0x04#8
  | .setdir l d => .micro (microWord 0x10#8 (0#6 ++ bit l.code ++ bit d.code))
  | .setlvl l v => .micro (microWord 0x11#8 (0#6 ++ bit l.code ++ bit v))
  | .getlvl l => .micro (microWord 0x12#8 (0#6 ++ bit l.code ++ 0#1))
  | .delay c => .micro (microWord 0x13#8 (0#6 ++ c))
  | .wbit n => .micro (microWord 0x20#8 (0#5 ++ n))
  | .wbyte sel => .micro (microWord 0x21#8 (0#6 ++ sel))
  | .rbit k n => .micro (microWord 0x22#8 (0#1 ++ k ++ 0#1 ++ n))
  | .rbyte k => .micro (microWord 0x23#8 (0#5 ++ k))
  | .idlechk => .micro (microWord 0x30#8 0#8)
  | .start => .micro (microWord 0x31#8 0#8)
  | .ackw => .micro (microWord 0x32#8 0#8)
  | .restart => .micro (microWord 0x33#8 0#8)
  | .sack => .micro (microWord 0x34#8 0#8)
  | .snak => .micro (microWord 0x35#8 0#8)
  | .stop => .micro (microWord 0x36#8 0#8)
  | .relln => .micro (microWord 0x37#8 0#8)
  | .validate => .micro (microWord 0x38#8 0#8)
  | .fail => .micro (microWord 0x39#8 0#8)

end Sys2Proof
end

