-- ==== Sys2Proof/Config.lean ====
section
/-!
DEFINITION. The configuration of the engine (`00_scope.md` R6, R8) and the one free value of the
model: the level the environment presents to a sample (`00_scope.md` R17).
-/

namespace Sys2Proof

/-- The two parameters the rules use. They are fixed for the life of the engine; the model carries
them in its state because `step` has no other argument (log 2). -/
structure Params where
  /-- `T_FULL_US`, the full-cycle period in microseconds (R6). -/
  tFullUs : Nat
  /-- `DEV_ADDR`, the peer's 7-bit address (R8). -/
  devAddr : BitVec 7
  deriving DecidableEq, Repr

/-- The default configuration: 40 microseconds (R6); the address `0x5C` is PRESUMED, the spec itself
takes it from general knowledge (R8, G1; log 3). -/
def Params.default : Params := { tFullUs := 40, devAddr := 0x5C#7 }

/-- DESIGN CHOICE (log 1). The environment's answer to sample number `n` where the state lists none:
a free value, 0 or 1 under no law (`00_scope.md` R17). It has no body, so no proof can see it. Safe:
what is proved holds for every sequence of answers. -/
opaque Config.freeLevel : Nat → Level

end Sys2Proof
end

