-- ==== Sys2Proof/Machine/State.lean ====
section
/-!
DEFINITION. The state of the engine (`10_state.md` R20 to R36, R45), the bookkeeping of
`00_scope.md` R14, the environment's side (R2, R17), and the reasons a step can stop.
-/

namespace Sys2Proof.Machine

/-- A line cell: its direction and its output latch (`10_state.md` R21, R22). -/
@[ext]
structure Cell where
  dir : Dir
  lat : Level
  deriving DecidableEq, Repr

/-- Five byte registers, `RX[0..4]` or `RD[0..4]` (`10_state.md` R24, R26). -/
@[ext]
structure FiveBytes where
  b0 : Byte
  b1 : Byte
  b2 : Byte
  b3 : Byte
  b4 : Byte
  deriving DecidableEq, Repr

/-- The error codes (`60_exceptions.md` R241). The register is 3 bits wide; code 7 is never produced,
so seven names hold every value it takes (U13, log 15). -/
inductive Err where
  | none
  | busBusy
  | ackTimeout
  | checksumMismatch
  | unsupportedOperation
  | notAcquired
  | illegalCommand
  deriving DecidableEq, Repr

/-- What a primitive did (`00_scope.md` R14). -/
inductive Act where
  /-- `Dir(line, dir)`. -/
  | dir (line : Line) (d : Dir)
  /-- `Lvl(line, level)`. -/
  | lvl (line : Line) (v : Level)
  /-- `Smp(line, level)`. -/
  | smp (line : Line) (v : Level)
  /-- `Dly(d)`, in microseconds. -/
  | dly (us : Nat)
  deriving DecidableEq, Repr

/-- A trace entry: the primitive and the value of `now` when it was performed (R14). -/
structure Event where
  time : Nat
  act : Act
  deriving DecidableEq, Repr

/-- A host access: `MemRead(addr, width)` or `MemWrite(addr, width, v)` (`20_memory.md` R60 to R64).
Only width 1 and offsets 0 to 7 exist (R64). -/
inductive Access where
  | read (addr width : Nat)
  | write (addr width : Nat) (v : Byte)
  deriving DecidableEq, Repr

/-- What the outside world does at a step boundary. DESIGN CHOICE (log 5): a schedule held as data,
so that every interleaving of host and engine (`20_memory.md` R71) is some state. Safe. -/
inductive Input where
  /-- The host's access reaches the window now, whatever `BUSY` is. -/
  | hostNow (a : Access)
  /-- A host that keeps R276: its access is issued once `BUSY = 0`; until then the engine runs. -/
  | hostWhenIdle (a : Access)
  /-- The engine performs one primitive before the next boundary, the smallest step of R16. -/
  | prim
  /-- `rst` is asserted and released (`70_reset_and_hazards.md` R270, R272). -/
  | reset
  deriving DecidableEq, Repr

/-- The machine's state. Plain data. -/
@[ext]
structure State where
  /-- The `SCL` cell (R21, R22). -/
  scl : Cell
  /-- The `SDA` cell (R21, R22). -/
  sda : Cell
  /-- `TXB`, the transmit byte (R25). -/
  txb : Byte
  /-- `RX[0..4]`, the receive buffer (R24). -/
  rx : FiveBytes
  /-- `RD[0..4]`, the result registers (R26). -/
  rd : FiveBytes
  /-- `upc`, the microprogram counter (R30). -/
  upc : BitVec 5
  /-- `ph`, the phase within the entry (R29). -/
  ph : BitVec 6
  /-- `bitn`, the bit index, a function of `ph` (R27, log 8). -/
  bitn : BitVec 3
  /-- `samp`, the last sample (R28). -/
  samp : Level
  /-- `samp0`, the idle check's first sample (R28). -/
  samp0 : Level
  /-- `BUSY` (R31). -/
  busy : Bool
  /-- `DONE` (R32). -/
  done : Bool
  /-- `ACQ` (R33). -/
  acq : Bool
  /-- `VALID` (R34). -/
  valid : Bool
  /-- `ERR` (R35). -/
  err : Err
  /-- `err_pend` (R36). -/
  errPend : Err
  /-- `now`, microseconds since the transaction's `READ` was accepted: bookkeeping (`00_scope.md` R14). -/
  now : Nat
  /-- `tr`, the trace: bookkeeping (R14). -/
  tr : List Event
  /-- The configuration, written by no step (R6, R8, R40; log 2). -/
  cfg : Params
  /-- Environment: its answers to the next samples, in order (R17; log 1). -/
  answers : List Level
  /-- Model's own: how many samples were taken, the counter `Config.freeLevel` is read at (log 1). -/
  asked : Nat
  /-- Environment: what reaches the engine at the next boundaries, in order (log 5). -/
  inputs : List Input
  /-- Environment: what `MemRead` returned to the host, oldest first (log 6). -/
  replies : List Byte
  /-- Model's own: a microword laid at the execution unit from outside the microprogram (log 7). -/
  slot : Option MicroWord
  deriving DecidableEq, Repr

/-- Why the machine stops with a fault: never. The spec has no such case: "Nothing in the engine is
`stuck`" (`93_implementation_defined.md`), and its errors are results of commands, "not faults of the
machine" (`60_exceptions.md` R260). No constructor; nothing raises one. -/
inductive Fault where
  deriving DecidableEq, Repr

/-- Why the model has no step. The spec names the first four as cases a model refuses. -/
inductive Refusal where
  /-- Raised by `exec` for an instruction without a meaning. No arm uses it. Safe: the model stops. -/
  | notModelled (mnemonic : String)
  /-- Raised by `step`: a configuration outside the legal set, "refused: the model has no meaning for
  it" (`00_scope.md` R6, U4). Safe. -/
  | illegalConfiguration
  /-- Raised by `GETLVL` of a line the engine drives: "a model refuses it"
  (`40_line_and_timing_primitives.md` R124, U2). Safe: no run of the engine reaches it (R188). -/
  | getlvlOfDrivenLine
  /-- Raised by a reserved microword or operand code: "A model that decodes U words refuses a reserved
  one" (`30_encoding.md` R100, U5). Safe: none can occur. -/
  | reservedMicroword
  /-- Raised by a host access that is not one byte at an offset 0 to 7: "a model refuses it"
  (`20_memory.md` R64, U8). Safe: no such access exists. -/
  | noSuchAccess
  /-- Raised by `step` while `BUSY = 1` with `upc` above 25, where there is no microprogram entry
  (`10_state.md` R30: values 0..25). Safe: no run reaches it. -/
  | noMicroprogramEntry
  /-- Raised by `step` with `ph` past the entry's last primitive (`10_state.md` R29). Safe: no run
  reaches it. -/
  | phaseOutOfRange
  deriving DecidableEq, Repr

/-- What a step or a meaning answers. -/
abbrev Result := Host.Outcome State Fault Refusal

/-- A line cell after reset: input direction, latch at 1 (`10_state.md` R45). -/
def Cell.released : Cell := { dir := .input, lat := true }

/-- Five zero bytes. -/
def FiveBytes.zero : FiveBytes := { b0 := 0#8, b1 := 0#8, b2 := 0#8, b3 := 0#8, b4 := 0#8 }

/-- The machine right after reset: the table of `10_state.md` R45, the default configuration (R6, R8),
and an empty environment (log 1, 5, 6, 7, 10). -/
def State.reset : State where
  scl := .released
  sda := .released
  txb := 0#8
  rx := .zero
  rd := .zero
  upc := 0#5
  ph := 0#6
  bitn := 7#3
  samp := true
  samp0 := true
  busy := false
  done := false
  acq := false
  valid := false
  err := .none
  errPend := .none
  now := 0
  tr := []
  cfg := .default
  answers := []
  asked := 0
  inputs := []
  replies := []
  slot := none

end Sys2Proof.Machine
end

