-- ==== Sys2Proof/Machine/Operands.lean ====
section
/-!
DEFINITION. Every operand form of the engine: duration codes, byte selectors, buffer indices, bit
insertion and extraction, and the configuration's derived constants.
-/

namespace Sys2Proof

/-- The three durations (`00_scope.md` R7; three and no fourth, C1). -/
inductive Dur where
  | q
  | h
  | f
  deriving DecidableEq, Repr

/-- The bytes a `WBYTE` can send (`30_encoding.md` R106). -/
inductive Sel where
  | addrW
  | regPtr
  | addrR
  deriving DecidableEq, Repr

/-- The duration a code names; 3 is reserved (`30_encoding.md` R97). -/
def durOf (c : BitVec 2) : Option Dur :=
  if c = 0#2 then some .q else if c = 1#2 then some .h else if c = 2#2 then some .f else none

/-- The code of a duration (R97). -/
def Dur.code : Dur → BitVec 2
  | .q => 0#2
  | .h => 1#2
  | .f => 2#2

/-- The byte a selector names; 3 is reserved (R106). -/
def selOf (c : BitVec 2) : Option Sel :=
  if c = 0#2 then some .addrW else if c = 1#2 then some .regPtr
  else if c = 2#2 then some .addrR else none

/-- The receive register an index names; 5 to 7 are reserved (R106). -/
def rxIndex (k : BitVec 3) : Option (Fin 5) :=
  if h : k.toNat < 5 then some ⟨k.toNat, h⟩ else none

/-- The legal configurations (`00_scope.md` R6): a period that is a multiple of 4 and at least 4.
Every 7-bit address is legal. -/
def Params.legal (p : Params) : Bool :=
  decide (4 ∣ p.tFullUs) && decide (4 ≤ p.tFullUs)

/-- Microseconds of a duration: `F`, `H = F / 2`, `Q = F / 4` (`00_scope.md` R6, R7; R209). -/
def Params.us (p : Params) : Dur → Nat
  | .q => p.tFullUs / 4
  | .h => p.tFullUs / 2
  | .f => p.tFullUs

/-- `ADDR_W = (DEV_ADDR << 1) | 0` (`00_scope.md` R10, R208). -/
def Params.addrW (p : Params) : Byte := p.devAddr.setWidth 8 <<< 1

/-- `ADDR_R = (DEV_ADDR << 1) | 1` (R10, R208). -/
def Params.addrR (p : Params) : Byte := (p.devAddr.setWidth 8 <<< 1) ||| 1#8

/-- `REG_PTR = 0x00` (R9). -/
def regPtr : Byte := 0x00#8

/-- The byte a `WBYTE` loads into `TXB` (`41_bit_byte_transfer.md` R143). -/
def Params.constByte (p : Params) : Sel → Byte
  | .addrW => p.addrW
  | .regPtr => regPtr
  | .addrR => p.addrR

end Sys2Proof

namespace Sys2Proof.Machine

/-- Register `k` of five. -/
def FiveBytes.get (r : FiveBytes) (k : Fin 5) : Byte :=
  match k with
  | 0 => r.b0
  | 1 => r.b1
  | 2 => r.b2
  | 3 => r.b3
  | 4 => r.b4

/-- Five registers with register `k` set to `v`. -/
def FiveBytes.set (r : FiveBytes) (k : Fin 5) (v : Byte) : FiveBytes :=
  match k with
  | 0 => { r with b0 := v }
  | 1 => { r with b1 := v }
  | 2 => { r with b2 := v }
  | 3 => { r with b3 := v }
  | 4 => { r with b4 := v }

/-- Bit insertion, `(b & ~(1 << n)) | (v << n)` on 8 bits (`43_checksum_and_reading.md` R206). -/
def insertBit (b : Byte) (n : BitVec 3) (v : Level) : Byte :=
  (b &&& ~~~(1#8 <<< n.toNat)) ||| ((BitVec.ofBool v).setWidth 8 <<< n.toNat)

/-- Bit extraction, `(b >> n) & 1` (R207). -/
def extractBit (b : Byte) (n : BitVec 3) : Level := b.getLsbD n.toNat

/-- The bit index of the slot at phase `p` of a byte operation: `7 - (p - 2) div 6` from phase 2 on
(`10_state.md` R27); 7 before it, the reset value of R45 (DEDUCED, log 8). -/
def bitnOf (p : BitVec 6) : BitVec 3 := BitVec.ofNat 3 (7 - (p.toNat - 2) / 6)

/-- The line cell `l` drives while its direction is `out`, and ignores a level while it is `in`
(`40_line_and_timing_primitives.md` R122, R123; log 13). -/
def Cell.drive (c : Cell) (v : Level) : Cell :=
  match c.dir with
  | .output => { c with lat := v }
  | .input => c

/-- The line cell turned to direction `d`; the latch is kept (R121, `10_state.md` R22). -/
def Cell.turn (c : Cell) (d : Dir) : Cell := { c with dir := d }

end Sys2Proof.Machine
end

