-- ==== Sys2Proof/Machine/Flags.lean ====
section
/-!
DEFINITION. Every flag computation of the engine and the registers a host sees: `STATUS`, the window
reads, the pads, the checksum law, the result of a call.
-/

namespace Sys2Proof.Machine

/-- The 3-bit code of an error (`60_exceptions.md` R241). -/
def Err.code : Err → BitVec 3
  | .none => 0#3
  | .busBusy => 1#3
  | .ackTimeout => 2#3
  | .checksumMismatch => 3#3
  | .unsupportedOperation => 4#3
  | .notAcquired => 5#3
  | .illegalCommand => 6#3

/-- `STATUS`: bit 7 `BUSY`, 6 `DONE`, 5 `ACQ`, 4 `VALID`, 3 zero, 2..0 `ERR` (`10_state.md` R37). -/
def State.status (s : State) : Byte :=
  BitVec.ofBool s.busy ++ BitVec.ofBool s.done ++ BitVec.ofBool s.acq ++ BitVec.ofBool s.valid
    ++ 0#1 ++ s.err.code

/-- `MemRead(a, 1)` for an offset `a` in 0..7 (`20_memory.md` R61, R62): `CMD` and the reserved offset
read 0, `STATUS`, then `DATA0..DATA4` = `RD[0..4]`. -/
def State.window (s : State) (a : Nat) : Byte :=
  if a = 1 then s.status
  else if a = 2 then s.rd.b0
  else if a = 3 then s.rd.b1
  else if a = 4 then s.rd.b2
  else if a = 5 then s.rd.b3
  else if a = 6 then s.rd.b4
  else 0x00#8

/-- The output port signals (`10_state.md` R23, `40_line_and_timing_primitives.md` R128). -/
structure Pads where
  sclOe : Bool
  sclO : Bool
  sdaOe : Bool
  sdaO : Bool
  deriving DecidableEq, Repr

/-- `oe = dir[L]`, `o = lat[L]` (R128). -/
def State.pads (s : State) : Pads where
  sclOe := s.scl.dir.code
  sclO := s.scl.lat
  sdaOe := s.sda.dir.code
  sdaO := s.sda.lat

/-- The level the engine puts on a wire: the latch while `out`, nothing while `in` (R128). -/
def Cell.drives (c : Cell) : Option Level :=
  match c.dir with
  | .output => some c.lat
  | .input => none

/-- The sum of the four payload bytes as naturals, reduced modulo 256
(`43_checksum_and_reading.md` R201, R202). -/
def FiveBytes.sum (r : FiveBytes) : Byte :=
  BitVec.ofNat 8 ((r.b0.toNat + r.b1.toNat + r.b2.toNat + r.b3.toNat) % 256)

/-- The checksum law: the fifth byte equals the sum (R201). -/
def FiveBytes.accepted (r : FiveBytes) : Bool := decide (r.b4 = r.sum)

/-- The idle check's test, after both samples (`42_transaction_sequencer.md` R162, R163). -/
def State.busIdle (s : State) : Bool := s.samp0 && s.samp

/-- The result of a completed call (`44_host_commands.md` R215): an error, a Reading, or nothing
(`ACQUIRE`, `RELEASE`). -/
inductive CallResult where
  | running
  | failed (e : Err)
  | reading (r : FiveBytes)
  | nothing
  deriving DecidableEq, Repr

/-- R215: `Ok(Reading)` when `ERR = 0` and `VALID = 1`, `Err(e)` when `ERR = e` is not 0. -/
def State.callResult (s : State) : CallResult :=
  if s.done = false then .running
  else if s.err ≠ .none then .failed s.err
  else if s.valid then .reading s.rd
  else .nothing

end Sys2Proof.Machine
end

