-- ==== Sys2Proof/Machine/Ops.lean ====
section
/-!
DEFINITION. The shared operations over the state: the four primitives, their lists, the entry of a
microprogram entry and its control transfer, the acceptance and completion of a command, and the end
of a transaction with or without an error.
-/

namespace Sys2Proof.Machine

/-- Sequencing of results: go on from a next state, keep a stop. -/
def andThen (r : Result) (f : State → Result) : Result :=
  match r with
  | .next s => f s
  | .fault e => .fault e
  | .refused e => .refused e

/-! ### Lines, time, trace -/

/-- The cell of a line. -/
def State.cell (s : State) : Line → Cell
  | .scl => s.scl
  | .sda => s.sda

/-- The state with the cell of a line replaced. -/
def State.setCell (s : State) (l : Line) (c : Cell) : State :=
  match l with
  | .scl => { s with scl := c }
  | .sda => { s with sda := c }

/-- The phase set; `bitn` follows it (`10_state.md` R27, R29; log 8). -/
def State.setPh (s : State) (p : BitVec 6) : State := { s with ph := p, bitn := bitnOf p }

/-- One primitive performed: its event is appended to the trace at the present `now`, and `ph`
advances by one (`40_line_and_timing_primitives.md` R120). -/
def State.performed (s : State) (a : Act) : State :=
  let t : State := { s with tr := s.tr ++ [Event.mk s.now a] }
  t.setPh (s.ph + 1#6)

/-! ### The environment's samples (`00_scope.md` R17; log 1) -/

/-- The level the environment presents to the sample `j` samples from now: the listed answer, or a
free value where none is listed. -/
def State.level (s : State) (j : Nat) : Level :=
  (s.answers[j]?).getD (Config.freeLevel (s.asked + j))

/-- `samp <- Env.sample(L)`: one answer is used up. -/
def State.sampled (s : State) : State :=
  { s with samp := s.level 0, answers := s.answers.drop 1, asked := s.asked + 1 }

/-! ### The four primitives (`40_line_and_timing_primitives.md`) -/

/-- `SETDIR L, d` (R121). -/
def State.setDir (s : State) (l : Line) (d : Dir) : State :=
  (s.setCell l ((s.cell l).turn d)).performed (.dir l d)

/-- `SETLVL L, v` (R122, R123): performed and recorded in either direction. -/
def State.setLvl (s : State) (l : Line) (v : Level) : State :=
  (s.setCell l ((s.cell l).drive v)).performed (.lvl l v)

/-- `GETLVL L` (R124): the environment's level, of a line in input direction; a driven line is
refused (U2). -/
def State.getLvl (s : State) (l : Line) : Result :=
  match (s.cell l).dir with
  | .input => .next (s.sampled.performed (.smp l (s.level 0)))
  | .output => .refused .getlvlOfDrivenLine

/-- `DELAY c` (R125): recorded, then `now` advances by exactly the nominal duration (log 10). -/
def State.delay (s : State) (d : Dur) : State :=
  let us := s.cfg.us d
  let t := s.performed (.dly us)
  { t with now := s.now + us }

/-! ### Expansions: lists of primitives (`00_scope.md` R16, `30_encoding.md` R104) -/

/-- One item of an expansion: a primitive, with what the rule attaches to its step. -/
inductive Micro where
  /-- `SETDIR L, d`. -/
  | setDir (l : Line) (d : Dir)
  /-- `SETLVL L, v`. -/
  | setLvl (l : Line) (v : Level)
  /-- `SETLVL SDA, TXB[n]`, its level computed when issued (R96, R141). -/
  | sendBit (n : BitVec 3)
  /-- `GETLVL L`. -/
  | getLvl (l : Line)
  /-- `GETLVL L`, and `samp0 <- samp` (R163). -/
  | keepFirst (l : Line)
  /-- `GETLVL SDA`, and `RX[k][n] <- samp` (R144). -/
  | takeBit (k : Fin 5) (n : BitVec 3)
  /-- `DELAY c`. -/
  | delay (d : Dur)
  deriving DecidableEq, Repr

/-- `samp0 <- samp` (`42_transaction_sequencer.md` R163). -/
def State.keepSample (s : State) : State := { s with samp0 := s.samp }

/-- `RX[k] <- (RX[k] & ~(1 << n)) | (samp << n)` (`41_bit_byte_transfer.md` R144). -/
def State.storeBit (s : State) (k : Fin 5) (n : BitVec 3) : State :=
  { s with rx := s.rx.set k (insertBit (s.rx.get k) n s.samp) }

/-- One item performed. -/
def perform (m : Micro) (s : State) : Result :=
  match m with
  | .setDir l d => .next (s.setDir l d)
  | .setLvl l v => .next (s.setLvl l v)
  | .sendBit n => .next (s.setLvl .sda (extractBit s.txb n))
  | .getLvl l => s.getLvl l
  | .keepFirst l => andThen (s.getLvl l) fun t => .next t.keepSample
  | .takeBit k n => andThen (s.getLvl .sda) fun t => .next (t.storeBit k n)
  | .delay d => .next (s.delay d)

/-- The class P word of an item, as it is issued (`30_encoding.md` R96, R97). -/
def Micro.issued (m : Micro) (s : State) : Instr :=
  match m with
  | .setDir l d => .setdir l d
  | .setLvl l v => .setlvl l v
  | .sendBit n => .setlvl .sda (extractBit s.txb n)
  | .getLvl l => .getlvl l
  | .keepFirst l => .getlvl l
  | .takeBit _ _ => .getlvl .sda
  | .delay d => .delay d.code

/-- A list of items performed in order; between two of them nothing else happens (R16, R70). -/
def runAll : List Micro → State → Result
  | [], s => .next s
  | m :: ms, s => andThen (perform m s) (runAll ms)

/-- A composite operation: what it loads before its first primitive, its primitives, and what follows
the last one (the control transfer of `42_transaction_sequencer.md` R162). -/
structure Routine where
  begin : State → State
  body : List Micro
  finish : State → State

/-- The whole operation in one step (`00_scope.md` R16). -/
def Routine.run (r : Routine) (s : State) : Result :=
  andThen (runAll r.body (r.begin s)) fun t => .next (r.finish t)

/-- The operation's next primitive, the one at phase `ph` (`10_state.md` R29); the load goes with the
first one and the control transfer with the last. -/
def Routine.runPrimitive (r : Routine) (s : State) : Result :=
  let s' := if s.ph = 0#6 then r.begin s else s
  match r.body[s.ph.toNat]? with
  | some m =>
    andThen (perform m s') fun t =>
      .next (if s.ph.toNat + 1 = r.body.length then r.finish t else t)
  | none => if s.ph = 0#6 then .next (r.finish s') else .refused .phaseOutOfRange

/-! ### Control transfer (`42_transaction_sequencer.md` R162) -/

/-- Sequential advance: `upc <- upc + 1; ph <- 0`. -/
def State.nextEntry (s : State) : State := { s.setPh 0#6 with upc := s.upc + 1#5 }

/-- Raising AckTimeout, the one branch: `err_pend <- 2; upc <- 22; ph <- 0` (R162, R243). Control goes
to the abort tail; `FAIL` ends the transaction four entries later. -/
def State.raiseAckTimeout (s : State) : State :=
  { s.setPh 0#6 with upc := 22#5, errPend := .ackTimeout }

/-- `END(e)`, the end of a transaction: every error of a transaction is raised by it, all in one step
(`60_exceptions.md` R248). It touches no line, no latch, no result register. -/
def State.endTransaction (s : State) (e : Err) : State :=
  let t := s.setPh 0#6
  { t with
    err := e
    rx := if e = .none then s.rx else .zero
    busy := false
    done := true
    upc := 0#5
    errPend := .none }

/-! ### Commands (`44_host_commands.md`) -/

/-- Acceptance (R216): the result of the previous command is gone. It is also the whole of the return
from an error (`60_exceptions.md` R251). -/
def State.accept (s : State) : State :=
  { s with done := false, err := .none, valid := false, rd := .zero }

/-- Completion of a command in the step that accepts it, with its error code or none. -/
def State.complete (s : State) (e : Err) : State := { s with err := e, done := true }

/-- A command byte's effect: dropped while `BUSY = 1` (R226), else accepted (R216) and executed. -/
def command (effect : State → State) (s : State) : Result :=
  .next (if s.busy then s else effect s.accept)

/-- Both lines to input direction; the latches are kept. -/
def State.releaseLines (s : State) : State :=
  { s with scl := s.scl.turn .input, sda := s.sda.turn .input }

/-- A reserved command code: IllegalCommand (R225, `60_exceptions.md` R247). -/
def illegalCommand (s : State) : Result := command (fun t => t.complete .illegalCommand) s

/-- `rst` asserted (`70_reset_and_hazards.md` R270, R272): every piece of state to its reset value,
nothing sent. The configuration, the bookkeeping and the environment are not the engine's state
(`10_state.md` R40) and stay (log 9). -/
def State.rst (s : State) : State :=
  { State.reset with
    cfg := s.cfg
    now := s.now
    tr := s.tr
    answers := s.answers
    asked := s.asked
    inputs := s.inputs
    replies := s.replies
    slot := s.slot }

end Sys2Proof.Machine
end

