-- ==== Sys2Proof/Machine/HostCommands.lean ====
section
/-!
DEFINITION. The host commands `ACQUIRE`, `RELEASE`, `READ`, `WRITE` (`44_host_commands.md`). Each is
dropped while `BUSY = 1` and accepted otherwise (R216, R217, R226): the shared operation `command`.
-/

namespace Sys2Proof.Machine

/-- `ACQUIRE` (R218): both lines to input direction with latches at 1, `ACQ <- 1`, no error. -/
def execAcquire (s : State) : Result :=
  command (fun t =>
    let u := { t with scl := .released, sda := .released, acq := true }
    u.complete .none) s

/-- `RELEASE` (R220): both lines to input direction, `ACQ <- 0`, no error. -/
def execRelease (s : State) : Result :=
  command (fun t =>
    let u := { t.releaseLines with acq := false }
    u.complete .none) s

/-- The start of a transaction (R222): `RX <- 0`, `BUSY <- 1`, the sequencer at its first entry, the
bookkeeping restarted. -/
def State.beginTransaction (s : State) : State :=
  { s.setPh 0#6 with
    rx := .zero
    busy := true
    upc := 0#5
    errPend := .none
    now := 0
    tr := [] }

/-- `READ`: with `ACQ = 1` a transaction starts (R222); with `ACQ = 0` NotAcquired (R223). -/
def execRead (s : State) : Result :=
  command (fun t => if t.acq then t.beginTransaction else t.complete .notAcquired) s

/-- `WRITE` (R224): UnsupportedOperation, whether or not the lines are acquired. -/
def execWrite (s : State) : Result :=
  command (fun t => t.complete .unsupportedOperation) s

end Sys2Proof.Machine
end

