-- ==== Sys2Proof/Machine/Primitives.lean ====
section
/-!
DEFINITION. The class P operations `SETDIR`, `SETLVL`, `GETLVL`, `DELAY`
(`40_line_and_timing_primitives.md`).
-/

namespace Sys2Proof.Machine

/-- `SETDIR L, d` (R121). -/
def execSetdir (l : Line) (d : Dir) (s : State) : Result := .next (s.setDir l d)

/-- `SETLVL L, v` (R122; while `dir[L] = in`, R123). -/
def execSetlvl (l : Line) (v : Level) (s : State) : Result := .next (s.setLvl l v)

/-- `GETLVL L` (R124). -/
def execGetlvl (l : Line) (s : State) : Result := s.getLvl l

/-- `DELAY c` (R125); the reserved code is refused (`30_encoding.md` R97, R100). -/
def execDelay (c : BitVec 2) (s : State) : Result :=
  match durOf c with
  | some d => .next (s.delay d)
  | none => .refused .reservedMicroword

end Sys2Proof.Machine
end

