-- ==== Sys2Proof/Machine/Transaction.lean ====
section
/-!
DEFINITION. The class T operations (`42_transaction_sequencer.md`; `VALIDATE` in
`43_checksum_and_reading.md`). Each expansion is the rule's own list, in its order; the control
transfer after it is R162.
-/

namespace Sys2Proof.Machine

/-- `IDLECHK` (R163): two samples, clock first; both high go on at entry 1, else `END(BusBusy)`. -/
def idlechkRoutine : Routine where
  begin s := s
  body := [.keepFirst .scl, .getLvl .sda]
  finish s := if s.busIdle then { s.setPh 0#6 with upc := 1#5 } else s.endTransaction .busBusy

/-- `START` (R165). -/
def startRoutine : Routine where
  begin s := s
  body := [.setDir .scl .output, .setDir .sda .output, .setLvl .sda false, .delay .h]
  finish := State.nextEntry

/-- `ACKW` (R168): a low sample goes on, a high one branches to the abort tail, after primitive 7. -/
def ackwRoutine : Routine where
  begin s := s
  body := [.setLvl .scl false, .setDir .sda .input, .delay .h, .setLvl .scl true, .delay .q,
    .getLvl .sda, .delay .q]
  finish s := if s.samp then s.raiseAckTimeout else s.nextEntry

/-- `RESTART` (R170). -/
def restartRoutine : Routine where
  begin s := s
  body := [.setLvl .scl false, .delay .h, .setDir .sda .output, .setLvl .sda true,
    .setLvl .scl true, .delay .h, .setLvl .sda false, .delay .h]
  finish := State.nextEntry

/-- The pulse of `SACK` and `SNAK`: they differ in the data level only (R172, R174). -/
def pulseBody (v : Level) : List Micro :=
  [.setLvl .scl false, .delay .q, .setDir .sda .output, .setLvl .sda v, .delay .q,
    .setLvl .scl true, .delay .h]

/-- `SACK` (R172): the acknowledge level is low. -/
def sackRoutine : Routine where
  begin s := s
  body := pulseBody false
  finish := State.nextEntry

/-- `SNAK` (R174): the no-acknowledge level is high. -/
def snakRoutine : Routine where
  begin s := s
  body := pulseBody true
  finish := State.nextEntry

/-- `STOP` (R175). -/
def stopRoutine : Routine where
  begin s := s
  body := [.setLvl .scl false, .delay .q, .setLvl .sda false, .delay .q, .setLvl .scl true,
    .delay .h, .setLvl .sda true, .delay .h]
  finish := State.nextEntry

/-- `RELLN` (R176). -/
def rellnRoutine : Routine where
  begin s := s
  body := [.setDir .scl .input, .setDir .sda .input]
  finish := State.nextEntry

/-- `VALIDATE` (R200, R203, R204): the checksum law gates the Reading. No primitive. -/
def validateRoutine : Routine where
  begin s := s
  body := []
  finish s :=
    if s.rx.accepted then
      let t := { s with rd := s.rx, valid := true }
      t.endTransaction .none
    else s.endTransaction .checksumMismatch

/-- `FAIL` (R177): `END(err_pend)`. No primitive. -/
def failRoutine : Routine where
  begin s := s
  body := []
  finish s := s.endTransaction s.errPend

/-- `IDLECHK` (R163). -/
def execIdlechk (s : State) : Result := idlechkRoutine.run s

/-- `START` (R165). -/
def execStart (s : State) : Result := startRoutine.run s

/-- `ACKW` (R168). -/
def execAckw (s : State) : Result := ackwRoutine.run s

/-- `RESTART` (R170). -/
def execRestart (s : State) : Result := restartRoutine.run s

/-- `SACK` (R172). -/
def execSack (s : State) : Result := sackRoutine.run s

/-- `SNAK` (R174). -/
def execSnak (s : State) : Result := snakRoutine.run s

/-- `STOP` (R175). -/
def execStop (s : State) : Result := stopRoutine.run s

/-- `RELLN` (R176). -/
def execRelln (s : State) : Result := rellnRoutine.run s

/-- `VALIDATE` (R200). -/
def execValidate (s : State) : Result := validateRoutine.run s

/-- `FAIL` (R177). -/
def execFail (s : State) : Result := failRoutine.run s

end Sys2Proof.Machine
end

