-- ==== Sys2Proof/Machine/Transfer.lean ====
section
/-!
DEFINITION. The class B operations `WBIT`, `WBYTE`, `RBIT`, `RBYTE` (`41_bit_byte_transfer.md`). Each
expansion is the rule's own list, in its order.
-/

namespace Sys2Proof.Machine

/-- The bit indices of a byte, most significant first (R143, R145; `20_memory.md` R67). -/
def bitOrder : List (BitVec 3) := [7#3, 6#3, 5#3, 4#3, 3#3, 2#3, 1#3, 0#3]

/-- The expansion of `WBIT n` (R141). -/
def wbitBody (n : BitVec 3) : List Micro :=
  [.setLvl .scl false, .delay .q, .sendBit n, .delay .q, .setLvl .scl true, .delay .h]

/-- The expansion of `WBYTE` (R143): both lines to output, clock first (D13), then eight bits. -/
def wbyteBody : List Micro :=
  [.setDir .scl .output, .setDir .sda .output] ++ bitOrder.flatMap wbitBody

/-- The expansion of `RBIT k, n` (R144). -/
def rbitBody (k : Fin 5) (n : BitVec 3) : List Micro :=
  [.setLvl .scl false, .delay .h, .setLvl .scl true, .delay .q, .takeBit k n, .delay .q]

/-- The expansion of `RBYTE k` (R145): clock low, data to input, then eight bits. -/
def rbyteBody (k : Fin 5) : List Micro :=
  [.setLvl .scl false, .setDir .sda .input] ++ bitOrder.flatMap (rbitBody k)

/-- `WBYTE sel` as an entry: `TXB <- const(sel)` before the first primitive (R143). -/
def wbyteRoutine (sel : Sel) : Routine where
  begin s := { s with txb := s.cfg.constByte sel }
  body := wbyteBody
  finish := State.nextEntry

/-- `RBYTE k` as an entry (R145). -/
def rbyteRoutine (k : Fin 5) : Routine where
  begin s := s
  body := rbyteBody k
  finish := State.nextEntry

/-- `WBIT n` (R141): a part of `WBYTE`, so no control transfer follows it. -/
def execWbit (n : BitVec 3) (s : State) : Result := runAll (wbitBody n) s

/-- `WBYTE sel` (R143); the reserved selector is refused (`30_encoding.md` R106, R100). -/
def execWbyte (sel : BitVec 2) (s : State) : Result :=
  match selOf sel with
  | some b => (wbyteRoutine b).run s
  | none => .refused .reservedMicroword

/-- `RBIT k, n` (R144): a part of `RBYTE`; a reserved index is refused (R106, R100). -/
def execRbit (k n : BitVec 3) (s : State) : Result :=
  match rxIndex k with
  | some i => runAll (rbitBody i n) s
  | none => .refused .reservedMicroword

/-- `RBYTE k` (R145); a reserved index is refused (R106, R100). -/
def execRbyte (k : BitVec 3) (s : State) : Result :=
  match rxIndex k with
  | some i => (rbyteRoutine i).run s
  | none => .refused .reservedMicroword

end Sys2Proof.Machine
end

