-- ==== Sys2Proof/Machine/Dispatch.lean ====
section
/-!
DEFINITION. The meaning of every operation: one arm per constructor of `Instr`.
-/

namespace Sys2Proof.Machine

def exec (i : Instr) (s : State) : Host.Outcome State Fault Refusal :=
  match i with
  | .acquire => Sys2Proof.Machine.execAcquire s
  | .release => Sys2Proof.Machine.execRelease s
  | .read => Sys2Proof.Machine.execRead s
  | .write => Sys2Proof.Machine.execWrite s
  | .setdir l d => Sys2Proof.Machine.execSetdir l d s
  | .setlvl l v => Sys2Proof.Machine.execSetlvl l v s
  | .getlvl l => Sys2Proof.Machine.execGetlvl l s
  | .delay c => Sys2Proof.Machine.execDelay c s
  | .wbit n => Sys2Proof.Machine.execWbit n s
  | .wbyte sel => Sys2Proof.Machine.execWbyte sel s
  | .rbit k n => Sys2Proof.Machine.execRbit k n s
  | .rbyte k => Sys2Proof.Machine.execRbyte k s
  | .idlechk => Sys2Proof.Machine.execIdlechk s
  | .start => Sys2Proof.Machine.execStart s
  | .ackw => Sys2Proof.Machine.execAckw s
  | .restart => Sys2Proof.Machine.execRestart s
  | .sack => Sys2Proof.Machine.execSack s
  | .snak => Sys2Proof.Machine.execSnak s
  | .stop => Sys2Proof.Machine.execStop s
  | .relln => Sys2Proof.Machine.execRelln s
  | .validate => Sys2Proof.Machine.execValidate s
  | .fail => Sys2Proof.Machine.execFail s

end Sys2Proof.Machine
end

