-- ==== Sys2Proof/Machine/Sequencer.lean ====
section
/-!
DEFINITION. The microprogram (`42_transaction_sequencer.md` R161), the fetch of its entries, the
execution of an entry whole or by one primitive, and the host's accesses (`20_memory.md`).
-/

namespace Sys2Proof.Machine

/-- The 26 words of R161: entries 0 to 21 are the main line, 22 to 25 the abort tail. A fixed table,
outside every address space (`20_memory.md` R74). -/
def microprogram : List MicroWord :=
  [0x3000#16, 0x3100#16, 0x2100#16, 0x3200#16, 0x2101#16, 0x3200#16, 0x3300#16, 0x2102#16,
    0x3200#16, 0x2300#16, 0x3400#16, 0x2301#16, 0x3400#16, 0x2302#16, 0x3400#16, 0x2303#16,
    0x3400#16, 0x2304#16, 0x3500#16, 0x3600#16, 0x3700#16, 0x3800#16]
  ++ [0x3500#16, 0x3600#16, 0x3700#16, 0x3900#16]

/-- The operation of an operation word that can be an entry, as a routine; primitives, bit slots and
host commands are no entries (R161). -/
def routineOf : Instr → Option Routine
  | .acquire => none
  | .release => none
  | .read => none
  | .write => none
  | .setdir _ _ => none
  | .setlvl _ _ => none
  | .getlvl _ => none
  | .delay _ => none
  | .wbit _ => none
  | .wbyte sel => (selOf sel).map wbyteRoutine
  | .rbit _ _ => none
  | .rbyte k => (rxIndex k).map rbyteRoutine
  | .idlechk => some idlechkRoutine
  | .start => some startRoutine
  | .ackw => some ackwRoutine
  | .restart => some restartRoutine
  | .sack => some sackRoutine
  | .snak => some snakRoutine
  | .stop => some stopRoutine
  | .relln => some rellnRoutine
  | .validate => some validateRoutine
  | .fail => some failRoutine

/-- The operation at an entry of the microprogram. -/
def entryAt (upc : BitVec 5) : Option Instr :=
  (microprogram[upc.toNat]?).bind fun w => (decodeMicro w).toOption

/-- The entry at `upc`, whole (R162; `00_scope.md` R16). -/
def runEntry (s : State) : Result :=
  match entryAt s.upc with
  | some i => exec i s
  | none => .refused .noMicroprogramEntry

/-- The next primitive of the entry at `upc` (`00_scope.md` R16, `10_state.md` R29). -/
def runPrimitive (s : State) : Result :=
  match (entryAt s.upc).bind routineOf with
  | some r => r.runPrimitive s
  | none => .refused .noMicroprogramEntry

/-- What the engine does between two boundaries. Idle, it waits (`60_exceptions.md` R259); busy, it
executes the entry at `upc`, or goes on by one primitive in an entry begun by primitives (log 4). -/
def engine (s : State) : Result :=
  if s.busy then
    if s.ph = 0#6 then runEntry s else runPrimitive s
  else .next s

/-- The engine's smallest step (`00_scope.md` R16). -/
def enginePrimitive (s : State) : Result :=
  if s.busy then runPrimitive s else .next s

/-- A byte written to `CMD` (`44_host_commands.md` R217). -/
def hostCommand (v : Byte) (s : State) : Result :=
  match decodeHost v with
  | .ok i => exec i s
  | .error _ => illegalCommand s

/-- A host access (`20_memory.md` R62, R63, R64): a read changes nothing of the engine, a write to
offset 0 is a command, a write to 1..7 is ignored; any other access does not exist. -/
def hostAccess (a : Access) (s : State) : Result :=
  match a with
  | .read addr width =>
    if addr ≤ 7 ∧ width = 1 then .next { s with replies := s.replies ++ [s.window addr] }
    else .refused .noSuchAccess
  | .write addr width v =>
    if addr ≤ 7 ∧ width = 1 then
      if addr = 0 then hostCommand v s else .next s
    else .refused .noSuchAccess

/-- A microword laid at the execution unit: decoded and executed, or refused (`30_encoding.md` R100;
log 7). -/
def issue (w : MicroWord) (s : State) : Result :=
  match decodeMicro w with
  | .ok i => exec i s
  | .error _ => .refused .reservedMicroword

/-- What happens between two boundaries, by the first item of the schedule (log 5). -/
def boundary (s : State) : Result :=
  match s.inputs with
  | [] => engine s
  | .reset :: rest => .next { s with inputs := rest }.rst
  | .prim :: rest => enginePrimitive { s with inputs := rest }
  | .hostNow a :: rest => hostAccess a { s with inputs := rest }
  | .hostWhenIdle a :: rest => if s.busy then engine s else hostAccess a { s with inputs := rest }

/-- One step: a microword laid at the execution unit is executed; otherwise the schedule, the host and
the sequencer act. -/
def oneStep (s : State) : Result :=
  match s.slot with
  | some w => issue w { s with slot := none }
  | none => boundary s

/-- The state with an operation laid where `step` fetches next: a command byte as the host's next
access to `CMD`, a microword in the slot (log 7). -/
def fetchWord (s : State) (nbits w : Nat) : State :=
  if nbits = 8 then
    { s with slot := none, inputs := .hostNow (.write 0 1 (BitVec.ofNat 8 w)) :: s.inputs }
  else { s with slot := some (BitVec.ofNat 16 w) }

end Sys2Proof.Machine
end

