-- ==== Sys2Proof/Machine/Step.lean ====
section
/-!
DEFINITION. The step of the machine, and the placing of one instruction where it fetches next.
-/

namespace Sys2Proof.Machine

/-- One step. A configuration outside the legal set has no meaning (`00_scope.md` R6, U4). -/
def step (s : State) : Host.Outcome State Fault Refusal :=
  if s.cfg.legal then oneStep s else .refused .illegalConfiguration

/-- The state with one instruction's bits laid where `step` fetches its next instruction. -/
def State.withFetchWord (s : State) (nbits w : Nat) : State := fetchWord s nbits w

end Sys2Proof.Machine
end

