-- ==== Sys2Proof/Safety.lean ====
section
/-!
DEFINITION. The words claims are made in: traces and their times, bytes as lists of levels, what a
receiver on the wires reads, the call view of `READ`, and the invariant of every run (the idle state of
`10_state.md` R46; the line states of `42_transaction_sequencer.md` R186).
-/

namespace Sys2Proof.Machine

/-! ### Traces -/

/-- Actions stamped from time `t` on: a delay moves the time of what follows it
(`00_scope.md` R14, `40_line_and_timing_primitives.md` R129). -/
def stamped : Nat → List Act → List Event
  | _, [] => []
  | t, .dly us :: rest => ⟨t, .dly us⟩ :: stamped (t + us) rest
  | t, a :: rest => ⟨t, a⟩ :: stamped t rest

/-- What a `WBIT` slot does, its data level `v` (`41_bit_byte_transfer.md` R141, R148). -/
def wbitActs (p : Params) (v : Level) : List Act :=
  [.lvl .scl false, .dly (p.us .q), .lvl .sda v, .dly (p.us .q), .lvl .scl true, .dly (p.us .h)]

/-- What a `RBIT` slot does, the sample being `v` (R144, R148). -/
def rbitActs (p : Params) (v : Level) : List Act :=
  [.lvl .scl false, .dly (p.us .h), .lvl .scl true, .dly (p.us .q), .smp .sda v, .dly (p.us .q)]

/-- What the acknowledge wait does, the sample being `v` (`42_transaction_sequencer.md` R168). -/
def ackwActs (p : Params) (v : Level) : List Act :=
  [.lvl .scl false, .dir .sda .input, .dly (p.us .h), .lvl .scl true, .dly (p.us .q), .smp .sda v,
    .dly (p.us .q)]

/-- What the repeated start does (R170). -/
def restartActs (p : Params) : List Act :=
  [.lvl .scl false, .dly (p.us .h), .dir .sda .output, .lvl .sda true, .lvl .scl true,
    .dly (p.us .h), .lvl .sda false, .dly (p.us .h)]

/-- What an acknowledge or a no-acknowledge sent by this side does, its level `v` (R172, R174). -/
def pulseActs (p : Params) (v : Level) : List Act :=
  [.lvl .scl false, .dly (p.us .q), .dir .sda .output, .lvl .sda v, .dly (p.us .q), .lvl .scl true,
    .dly (p.us .h)]

/-- What the stop condition does (R175). -/
def stopActs (p : Params) : List Act :=
  [.lvl .scl false, .dly (p.us .q), .lvl .sda false, .dly (p.us .q), .lvl .scl true,
    .dly (p.us .h), .lvl .sda true, .dly (p.us .h)]

/-- What a byte sent does: both lines to output, then eight slots, bit 7 first (R143). -/
def wbyteActs (p : Params) (b : Byte) : List Act :=
  [.dir .scl .output, .dir .sda .output]
    ++ [7, 6, 5, 4, 3, 2, 1, 0].flatMap fun n => wbitActs p (b.getLsbD n)

/-- What a byte received does, the samples being `a 0` to `a 7` (R145). -/
def rbyteActs (p : Params) (a : Nat → Level) : List Act :=
  [.lvl .scl false, .dir .sda .input]
    ++ [0, 1, 2, 3, 4, 5, 6, 7].flatMap fun j => rbitActs p (a j)

/-- The level the engine's trace last set line `l` to, at or before time `t`. -/
def levelAt (tr : List Event) (l : Line) (t : Nat) : Option Level :=
  tr.foldl (fun acc e =>
    match e.act with
    | .lvl l' v => if l' = l ∧ e.time ≤ t then some v else acc
    | _ => acc) none

/-- The number of samples in a trace. -/
def samples (tr : List Event) : Nat :=
  tr.countP fun e => match e.act with
    | .smp _ _ => true
    | _ => false

/-! ### Bytes as levels -/

/-- The byte whose bits, most significant first, are the levels (`20_memory.md` R67). -/
def byteOf (l : List Level) : Byte :=
  l.foldl (fun b v => (b <<< 1) ||| (BitVec.ofBool v).setWidth 8) 0#8

/-- Eight successive answers from number `j` on, as a byte. -/
def byteFrom (a : Nat → Level) (j : Nat) : Byte :=
  byteOf [a j, a (j + 1), a (j + 2), a (j + 3), a (j + 4), a (j + 5), a (j + 6), a (j + 7)]

/-! ### Running operations one after another -/

/-- Operations executed in order. -/
def execAll : List Instr → State → Result
  | [], s => .next s
  | i :: is, s => andThen (exec i s) (execAll is)

/-- A step taken `n` times, stopping where it stops. -/
def iterate (f : State → Result) : Nat → State → Result
  | 0, s => .next s
  | n + 1, s => andThen (f s) (iterate f n)

/-! ### The call view (`44_host_commands.md` R228) -/

/-- `perform_read` as a function of the environment's answers. -/
def callView (a : Nat → Level) : CallResult :=
  if a 0 = false ∨ a 1 = false then .failed .busBusy
  else if a 2 = true ∨ a 3 = true ∨ a 4 = true then .failed .ackTimeout
  else
    let r : FiveBytes :=
      ⟨byteFrom a 5, byteFrom a 13, byteFrom a 21, byteFrom a 29, byteFrom a 37⟩
    if r.b4.toNat = (r.b0.toNat + r.b1.toNat + r.b2.toNat + r.b3.toNat) % 256 then .reading r
    else .failed .checksumMismatch

/-- Samples, primitives and quarter cycles of the run the answers lead to
(`42_transaction_sequencer.md` R189). DEDUCED (log 19): the longest run, 75.5 cycles (R189, R290), is 302
quarter cycles, since `Q = F / 4`; `43_checksum_and_reading.md` R209 writes `75.5F = 151Q`, which
contradicts its own `Q`, and no file settles the slip. Unsafe if 151 quarter cycles were meant. -/
def runLengths (a : Nat → Level) : Nat × Nat × Nat :=
  if a 0 = false ∨ a 1 = false then (2, 2, 0)
  else if a 2 = true then (3, 80, 48)
  else if a 3 = true then (4, 137, 84)
  else if a 4 = true then (5, 202, 126)
  else (45, 480, 302)

/-! ### The invariant -/

/-- What the primitive does to the two line cells, `TXB` holding `txb`. -/
def Micro.onCells (txb : Byte) (c : Cell × Cell) : Micro → Cell × Cell
  | .setDir .scl d => (c.1.turn d, c.2)
  | .setDir .sda d => (c.1, c.2.turn d)
  | .setLvl .scl v => (c.1.drive v, c.2)
  | .setLvl .sda v => (c.1, c.2.drive v)
  | .sendBit n => (c.1, c.2.drive (extractBit txb n))
  | .getLvl _ => c
  | .keepFirst _ => c
  | .takeBit _ _ => c
  | .delay _ => c

/-- The primitives of the entry at `upc`. -/
def entryBody (upc : BitVec 5) : List Micro :=
  match (entryAt upc).bind routineOf with
  | some r => r.body
  | none => []

/-- The byte the entry at `upc` sends, if it is a `WBYTE`. -/
def entrySel (upc : BitVec 5) : Option Sel :=
  match entryAt upc with
  | some (.wbyte sel) => selOf sel
  | _ => none

/-- A cell in direction `out`, or `in`, with its latch. -/
def Cell.out (v : Level) : Cell := ⟨.output, v⟩

/-- A cell in direction `in`, with its latch. -/
def Cell.inp (v : Level) : Cell := ⟨.input, v⟩

/-- The line cells, `SCL` then `SDA`, with which each entry of the microprogram begins
(`42_transaction_sequencer.md` R186): entry 22 has two cases, by the `ACKW` it is reached from. -/
def entryCells : List (List (Cell × Cell)) :=
  [[(.inp true, .inp true)], [(.inp true, .inp true)], [(.out true, .out false)],
    [(.out true, .out false)], [(.out true, .inp false)], [(.out true, .out false)],
    [(.out true, .inp false)], [(.out true, .out false)], [(.out true, .out true)],
    [(.out true, .inp true)], [(.out true, .inp true)], [(.out true, .out false)],
    [(.out true, .inp false)], [(.out true, .out false)], [(.out true, .inp false)],
    [(.out true, .out false)], [(.out true, .inp false)], [(.out true, .out false)],
    [(.out true, .inp false)], [(.out true, .out true)], [(.out true, .out true)],
    [(.inp true, .inp true)], [(.out true, .inp false), (.out true, .inp true)],
    [(.out true, .out true)], [(.out true, .out true)], [(.inp true, .inp true)]]

/-- The idle state (`10_state.md` R46). -/
structure Idle (s : State) : Prop where
  scl : s.scl = .released
  sda : s.sda = .released
  upc : s.upc = 0#5
  ph : s.ph = 0#6
  errPend : s.errPend = .none

/-- A transaction in progress, at a primitive of an entry. -/
structure Running (s : State) : Prop where
  /-- `upc` is an entry (R30). -/
  entry : s.upc.toNat < 26
  /-- `ph` is a primitive of it (R29). -/
  phase : s.ph.toNat < max 1 (entryBody s.upc).length
  /-- The lines are what the entry's primitives so far make of the cells it began with. -/
  lines : ∃ c ∈ (entryCells[s.upc.toNat]?).getD [],
    ((entryBody s.upc).take s.ph.toNat).foldl (Micro.onCells s.txb) c = (s.scl, s.sda)
  /-- Inside a `WBYTE`, `TXB` holds the byte it sends (R25). -/
  loaded : s.ph ≠ 0#6 → ∀ b, entrySel s.upc = some b → s.txb = s.cfg.constByte b
  /-- `err_pend` holds AckTimeout in the abort tail and nothing before it (R36). -/
  pending : s.errPend = if 22 ≤ s.upc.toNat then .ackTimeout else .none

/-- The thirteen values of `STATUS` a host can see (`10_state.md` R37). -/
def visibleStatus : List Byte :=
  [0x00#8, 0x60#8, 0x40#8, 0xA0#8, 0x70#8, 0x61#8, 0x62#8, 0x63#8, 0x64#8, 0x44#8, 0x45#8, 0x66#8,
    0x46#8]

/-- The invariant of every run: no word is laid at the execution unit from outside, the flags make one
of the visible `STATUS` values, `bitn` is the function of `ph`, `RD` holds an accepted Reading exactly
while `VALID = 1`, and the engine is idle or at a primitive of its microprogram. -/
structure Inv (s : State) : Prop where
  slot : s.slot = none
  status : s.status ∈ visibleStatus
  bitn : s.bitn = bitnOf s.ph
  noReading : s.valid = false → s.rd = .zero
  reading : s.valid = true → s.rd.accepted = true
  idle : s.busy = false → Idle s
  running : s.busy = true → Running s

/-- An access that exists at the interface (`20_memory.md` R64). -/
def Access.exists : Access → Bool
  | .read addr width => decide (addr ≤ 7) && decide (width = 1)
  | .write addr width _ => decide (addr ≤ 7) && decide (width = 1)

/-- An input whose access, if it has one, exists. -/
def Input.exists : Input → Bool
  | .hostNow a => a.exists
  | .hostWhenIdle a => a.exists
  | .prim => true
  | .reset => true

/-- A run is safe while it goes on: the step answers a next state. -/
def Safe (s : State) : Prop := ∃ t, step s = .next t

end Sys2Proof.Machine
end

