-- ==== Sys2Proof/Certificates/Slice0/Obligations.lean ====
section
/-!
DEFINITION. The statements for the provers. Each says what the numbered rules it cites say; where a
next state is given whole, every field not named is unchanged, and that is its frame. `bitn` outside a
byte operation has no meaning (`10_state.md` R27), so where an operation moves `ph` its value is left
open (`bitn := k` for some `k`); the model's choice there is log 8.
-/

open Sys2Proof Sys2Proof.Machine

/-! ## Encoding -/

/-- Every well-formed operation's encoding decodes to it (R92, R95, R98, R99, R100). -/
def Obligations.DecodeOfEncodeIsTheOperation : Prop :=
  ∀ i : Instr, i.wf = true → decode (encode i) = .ok i

/-- Each byte or word has one meaning: what decodes is well-formed and is the encoding of what it
decodes to (R90, R100). -/
def Obligations.OnlyItsEncodingDecodesToAnOperation : Prop :=
  ∀ (c : Code) (i : Instr), decode c = .ok i → i.wf = true ∧ encode i = c

/-- A few words written out from the tables of `30_encoding.md` decode to their operations, and the
four command bytes to theirs. -/
def Obligations.WordsOfTheTablesDecode : Prop :=
  decodeHost 0b00000011#8 = .ok .read ∧
  decodeMicro 0b0001000000000011#16 = .ok (.setdir .sda .output) ∧
  decodeMicro 0b0001000100000001#16 = .ok (.setlvl .scl true) ∧
  decodeMicro 0b0001001000000010#16 = .ok (.getlvl .sda) ∧
  decodeMicro 0b0001001100000010#16 = .ok (.delay 2#2) ∧
  decodeMicro 0b0010000000000110#16 = .ok (.wbit 6#3) ∧
  decodeMicro 0b0010000100000001#16 = .ok (.wbyte 1#2) ∧
  decodeMicro 0b0010001000100011#16 = .ok (.rbit 2#3 3#3) ∧
  decodeMicro 0b0010001100000100#16 = .ok (.rbyte 4#3) ∧
  decodeMicro 0b0011011000000000#16 = .ok .stop

/-- R161: the 26 entries, their words, and the operation each word is. -/
def Obligations.MicroprogramIsTheTable : Prop :=
  microprogram.map (fun w => (decodeMicro w).toOption) =
    ([.idlechk, .start, .wbyte 0#2, .ackw, .wbyte 1#2, .ackw, .restart, .wbyte 2#2, .ackw, .rbyte 0#3,
      .sack, .rbyte 1#3, .sack, .rbyte 2#3, .sack, .rbyte 3#3, .sack, .rbyte 4#3, .snak, .stop, .relln,
      .validate, .snak, .stop, .relln, .fail] : List Instr).map some ∧
  microprogram.length = 26

/-- R100: a word is reserved when its opcode byte is none of the eighteen, or an operand bit that the
tables leave unused is 1, or `c = 3`, `sel = 3` or `k > 4`. It has no meaning: wherever one is laid,
the step refuses it. -/
def Obligations.ReservedMicrowordIsRefused : Prop :=
  ∀ (s : State) (op arg : Byte), s.cfg.legal = true → s.slot = some (op ++ arg) →
    ((op.toNat < 0x10 ∨ 0x13 < op.toNat ∧ op.toNat < 0x20 ∨ 0x23 < op.toNat ∧ op.toNat < 0x30 ∨
        0x39 < op.toNat) ∨
     ((op = 0x10#8 ∨ op = 0x11#8) ∧ arg &&& 0xFC#8 ≠ 0#8) ∨
     (op = 0x12#8 ∧ arg &&& 0xFD#8 ≠ 0#8) ∨
     ((op = 0x13#8 ∨ op = 0x21#8) ∧ (arg &&& 0xFC#8 ≠ 0#8 ∨ arg.extractLsb' 0 2 = 3#2)) ∨
     (op = 0x20#8 ∧ arg &&& 0xF8#8 ≠ 0#8) ∨
     (op = 0x22#8 ∧ (arg &&& 0x88#8 ≠ 0#8 ∨ 4 < (arg.extractLsb' 4 3).toNat)) ∨
     (op = 0x23#8 ∧ (arg &&& 0xF8#8 ≠ 0#8 ∨ 4 < (arg.extractLsb' 0 3).toNat)) ∨
     (0x30 ≤ op.toNat ∧ arg ≠ 0#8)) →
    step s = .refused .reservedMicroword

/-! ## Configuration, operands, arithmetic -/

/-- R6, R7: with a legal period the half and the quarter are exact, the quarter is at least 1 and the
half is twice the quarter; by default they are 40, 20 and 10 microseconds. -/
def Obligations.LegalPeriodDividesExactly : Prop :=
  (∀ p : Params, p.legal = true →
    p.us .f = p.tFullUs ∧ 2 * p.us .h = p.us .f ∧ 4 * p.us .q = p.us .f ∧ 1 ≤ p.us .q ∧
    p.us .h = 2 * p.us .q) ∧
  Params.default.us .f = 40 ∧ Params.default.us .h = 20 ∧ Params.default.us .q = 10

/-- R10, R208: the address is in bits 7..1, the direction bit in bit 0, 0 to write and 1 to read. The
spec marks the bit's place and sense as general knowledge (R10, G2). -/
def Obligations.AddressBytesCarryTheDirectionBit : Prop :=
  ∀ p : Params, p.addrW = p.devAddr ++ 0#1 ∧ p.addrR = p.devAddr ++ 1#1

/-- R206: bit `n` becomes the level, the other seven bits keep their values. -/
def Obligations.InsertBitSetsOneBitOnly : Prop :=
  ∀ (b : Byte) (n : BitVec 3) (v : Level) (m : Nat), m < 8 →
    (insertBit b n v).getLsbD m = if m = n.toNat then v else b.getLsbD m

/-- R201: a Reading is accepted iff the fifth byte is the natural sum of the first four modulo 256;
adding in 8 bits with wrap-around at each step gives the same value. -/
def Obligations.ChecksumLaw : Prop :=
  ∀ r : FiveBytes,
    (r.accepted = true ↔
      r.b4.toNat = (r.b0.toNat + r.b1.toNat + r.b2.toNat + r.b3.toNat) % 256) ∧
    r.sum = r.b0 + r.b1 + r.b2 + r.b3

/-! ## Primitives -/

/-- R121: the direction is set, the latch kept, the event recorded, in every state and whatever the
direction was; the pad then drives the latch, or nothing. -/
def Obligations.SetdirTurnsOneLine : Prop :=
  ∀ (l : Line) (d : Dir) (s : State), ∃ k t, exec (.setdir l d) s = .next t ∧
    t = { s with
      scl := if l = .scl then ⟨d, s.scl.lat⟩ else s.scl
      sda := if l = .sda then ⟨d, s.sda.lat⟩ else s.sda
      tr := s.tr ++ [⟨s.now, .dir l d⟩]
      ph := s.ph + 1#6
      bitn := k } ∧
    (t.cell l).drives = if d = .output then some (s.cell l).lat else none

/-- R122, R123: the latch is written only while the direction is `out`; the event is recorded in
either direction. -/
def Obligations.SetlvlWritesTheLatchOfADrivenLine : Prop :=
  ∀ (l : Line) (v : Level) (s : State), ∃ k, exec (.setlvl l v) s = .next { s with
    scl := if l = .scl ∧ s.scl.dir = .output then ⟨.output, v⟩ else s.scl
    sda := if l = .sda ∧ s.sda.dir = .output then ⟨.output, v⟩ else s.sda
    tr := s.tr ++ [⟨s.now, .lvl l v⟩]
    ph := s.ph + 1#6
    bitn := k }

/-- R124: a line in input direction is sampled once, the level is the environment's, and no line
changes; a driven line is refused. -/
def Obligations.GetlvlSamplesAReleasedLine : Prop :=
  ∀ (l : Line) (s : State),
    ((s.cell l).dir = .input → ∃ k, exec (.getlvl l) s = .next { s with
      samp := s.level 0
      answers := s.answers.drop 1
      asked := s.asked + 1
      tr := s.tr ++ [⟨s.now, .smp l (s.level 0)⟩]
      ph := s.ph + 1#6
      bitn := k }) ∧
    ((s.cell l).dir = .output → exec (.getlvl l) s = .refused .getlvlOfDrivenLine)

/-- R125, R97: `now` advances by exactly the duration the code names, `Q`, `H` or `F`, and nothing
changes on either line; code 3 is reserved. -/
def Obligations.DelayAdvancesTimeOnly : Prop :=
  ∀ s : State,
    (∀ (c : BitVec 2) (us : Nat),
      (c = 0#2 ∧ us = s.cfg.tFullUs / 4 ∨ c = 1#2 ∧ us = s.cfg.tFullUs / 2 ∨
        c = 2#2 ∧ us = s.cfg.tFullUs) →
      ∃ k, exec (.delay c) s = .next { s with
        now := s.now + us
        tr := s.tr ++ [⟨s.now, .dly us⟩]
        ph := s.ph + 1#6
        bitn := k }) ∧
    exec (.delay 3#2) s = .refused .reservedMicroword

/-! ## Bit and byte transfer -/

/-- R141: the six primitives of a write slot; the data level is bit `n` of `TXB`, which is not
changed. Each line takes its level where it is driven. -/
def Obligations.WbitDrivesOneBitOfTxb : Prop :=
  ∀ (n : BitVec 3) (s : State), ∃ k, exec (.wbit n) s = .next { s with
    scl := s.scl.drive true
    sda := s.sda.drive (s.txb.getLsbD n.toNat)
    now := s.now + (s.cfg.us .q + s.cfg.us .q + s.cfg.us .h)
    tr := s.tr ++ stamped s.now (wbitActs s.cfg (s.txb.getLsbD n.toNat))
    ph := s.ph + 6#6
    bitn := k }

/-- R143: the selected byte is loaded, both lines become outputs, clock first, and the eight bits go
out most significant first; the next entry follows. Selector 3 is reserved (R100, R106). -/
def Obligations.WbyteSendsTheSelectedByte : Prop :=
  ∀ s : State,
    (∀ (c : BitVec 2) (b : Byte),
      (c = 0#2 ∧ b = s.cfg.addrW ∨ c = 1#2 ∧ b = 0x00#8 ∨ c = 2#2 ∧ b = s.cfg.addrR) →
      ∃ k, exec (.wbyte c) s = .next { s with
        txb := b
        scl := ⟨.output, true⟩
        sda := ⟨.output, b.getLsbD 0⟩
        now := s.now + 8 * (s.cfg.us .q + s.cfg.us .q + s.cfg.us .h)
        tr := s.tr ++ stamped s.now (wbyteActs s.cfg b)
        upc := s.upc + 1#5
        ph := 0#6
        bitn := k }) ∧
    exec (.wbyte 3#2) s = .refused .reservedMicroword

/-- R144: the six primitives of a read slot; the one sample sets or clears bit `n` of `RX[i]` and no
other bit. With `SDA` driven the sample is refused (R124); an index above 4 is reserved (R100). -/
def Obligations.RbitStoresOneSample : Prop :=
  (∀ (i : Fin 5) (n : BitVec 3) (s : State), s.sda.dir = .input →
    ∃ k, exec (.rbit (BitVec.ofNat 3 i) n) s = .next { s with
      scl := s.scl.drive true
      samp := s.level 0
      rx := s.rx.set i (insertBit (s.rx.get i) n (s.level 0))
      answers := s.answers.drop 1
      asked := s.asked + 1
      now := s.now + (s.cfg.us .h + s.cfg.us .q + s.cfg.us .q)
      tr := s.tr ++ stamped s.now (rbitActs s.cfg (s.level 0))
      ph := s.ph + 6#6
      bitn := k }) ∧
  (∀ (i : Fin 5) (n : BitVec 3) (s : State), s.sda.dir = .output →
    exec (.rbit (BitVec.ofNat 3 i) n) s = .refused .getlvlOfDrivenLine) ∧
  (∀ (k n : BitVec 3) (s : State), 4 < k.toNat →
    exec (.rbit k n) s = .refused .reservedMicroword)

/-- R145: the byte in `RX[i]` is the eight samples, most significant first, whatever it held before;
the other four bytes and the latch of `SDA` are kept; the next entry follows. An index above 4 is
reserved (R100). -/
def Obligations.RbyteAssemblesEightSamples : Prop :=
  (∀ (i : Fin 5) (s : State), ∃ k, exec (.rbyte (BitVec.ofNat 3 i)) s = .next { s with
    scl := s.scl.drive true
    sda := ⟨.input, s.sda.lat⟩
    samp := s.level 7
    rx := s.rx.set i (byteFrom s.level 0)
    answers := s.answers.drop 8
    asked := s.asked + 8
    now := s.now + 8 * (s.cfg.us .h + s.cfg.us .q + s.cfg.us .q)
    tr := s.tr ++ stamped s.now (rbyteActs s.cfg s.level)
    upc := s.upc + 1#5
    ph := 0#6
    bitn := k }) ∧
  (∀ (k : BitVec 3) (s : State), 4 < k.toNat → exec (.rbyte k) s = .refused .reservedMicroword)

/-- R147: for every byte in `TXB`, a receiver that reads `SDA` in the trace of the eight write slots at
three quarters of each slot, and assembles the levels most significant first, has the byte. -/
def Obligations.ReceiverOfAWrittenByteReadsIt : Prop :=
  ∀ s : State, s.cfg.legal = true → s.scl.dir = .output → s.sda.dir = .output →
    ∃ t, execAll [.wbit 7#3, .wbit 6#3, .wbit 5#3, .wbit 4#3, .wbit 3#3, .wbit 2#3, .wbit 1#3, .wbit 0#3] s
        = .next t ∧
      byteOf ((List.range 8).map fun i =>
        (levelAt t.tr .sda (s.now + i * s.cfg.us .f + 3 * s.cfg.us .q)).getD false) = s.txb

/-! ## Transaction operations -/

/-- R163, R242: both lines are always sampled, clock first; both high go on at entry 1, anything else
ends with BusBusy and no line changed. With a line driven, its sample is refused (R124). -/
def Obligations.IdlechkNeedsBothLinesHigh : Prop :=
  (∀ s t : State, s.scl.dir = .input → s.sda.dir = .input →
    t = { s with
      samp0 := s.level 0
      samp := s.level 1
      answers := s.answers.drop 2
      asked := s.asked + 2
      tr := s.tr ++ [⟨s.now, .smp .scl (s.level 0)⟩, ⟨s.now, .smp .sda (s.level 1)⟩]
      ph := 0#6 } →
    ∃ k, exec .idlechk s =
      if s.level 0 = true ∧ s.level 1 = true then .next { t with upc := 1#5, bitn := k }
      else .next { t with
        err := .busBusy
        rx := .zero
        busy := false
        done := true
        upc := 0#5
        errPend := .none
        bitn := k }) ∧
  (∀ s : State, s.scl.dir = .output ∨ s.sda.dir = .output →
    exec .idlechk s = .refused .getlvlOfDrivenLine)

/-- R165: both lines become outputs, clock first, each driving its latch; then `SDA` goes low and half
a cycle passes. -/
def Obligations.StartPullsDataLow : Prop :=
  ∀ s : State, ∃ k, exec .start s = .next { s with
    scl := ⟨.output, s.scl.lat⟩
    sda := ⟨.output, false⟩
    now := s.now + s.cfg.us .h
    tr := s.tr ++ stamped s.now
      [.dir .scl .output, .dir .sda .output, .lvl .sda false, .dly (s.cfg.us .h)]
    upc := s.upc + 1#5
    ph := 0#6
    bitn := k }

/-- R168, R162: `SDA` is released and sampled once; low goes on, high stores AckTimeout in `err_pend`
and goes to entry 22, with `ERR` and `BUSY` as they were. -/
def Obligations.AckwBranchesOnItsSample : Prop :=
  ∀ s t : State,
    t = { s with
      scl := s.scl.drive true
      sda := ⟨.input, s.sda.lat⟩
      samp := s.level 0
      answers := s.answers.drop 1
      asked := s.asked + 1
      now := s.now + (s.cfg.us .h + s.cfg.us .q + s.cfg.us .q)
      tr := s.tr ++ stamped s.now (ackwActs s.cfg (s.level 0))
      ph := 0#6 } →
    ∃ k, exec .ackw s =
      if s.level 0 = false then .next { t with upc := s.upc + 1#5, bitn := k }
      else .next { t with upc := 22#5, errPend := .ackTimeout, bitn := k }

/-- R170: the eight primitives of the repeated start. -/
def Obligations.RestartPullsDataLowUnderHighClock : Prop :=
  ∀ s : State, ∃ k, exec .restart s = .next { s with
    scl := s.scl.drive true
    sda := ⟨.output, false⟩
    now := s.now + (s.cfg.us .h + s.cfg.us .h + s.cfg.us .h)
    tr := s.tr ++ stamped s.now (restartActs s.cfg)
    upc := s.upc + 1#5
    ph := 0#6
    bitn := k }

/-- R172: the acknowledge pulse, level low. -/
def Obligations.SackSendsALowPulse : Prop :=
  ∀ s : State, ∃ k, exec .sack s = .next { s with
    scl := s.scl.drive true
    sda := ⟨.output, false⟩
    now := s.now + (s.cfg.us .q + s.cfg.us .q + s.cfg.us .h)
    tr := s.tr ++ stamped s.now (pulseActs s.cfg false)
    upc := s.upc + 1#5
    ph := 0#6
    bitn := k }

/-- R174: the no-acknowledge pulse, level high. -/
def Obligations.SnakSendsAHighPulse : Prop :=
  ∀ s : State, ∃ k, exec .snak s = .next { s with
    scl := s.scl.drive true
    sda := ⟨.output, true⟩
    now := s.now + (s.cfg.us .q + s.cfg.us .q + s.cfg.us .h)
    tr := s.tr ++ stamped s.now (pulseActs s.cfg true)
    upc := s.upc + 1#5
    ph := 0#6
    bitn := k }

/-- R175: the stop condition; each line takes its levels where it is driven. -/
def Obligations.StopRaisesDataUnderHighClock : Prop :=
  ∀ s : State, ∃ k, exec .stop s = .next { s with
    scl := s.scl.drive true
    sda := s.sda.drive true
    now := s.now + (s.cfg.us .q + s.cfg.us .q + s.cfg.us .h + s.cfg.us .h)
    tr := s.tr ++ stamped s.now (stopActs s.cfg)
    upc := s.upc + 1#5
    ph := 0#6
    bitn := k }

/-- R176: both lines to input direction, clock first, latches unchanged, no time. -/
def Obligations.RellnReleasesBothLines : Prop :=
  ∀ s : State, ∃ k, exec .relln s = .next { s with
    scl := ⟨.input, s.scl.lat⟩
    sda := ⟨.input, s.sda.lat⟩
    tr := s.tr ++ [⟨s.now, .dir .scl .input⟩, ⟨s.now, .dir .sda .input⟩]
    upc := s.upc + 1#5
    ph := 0#6
    bitn := k }

/-- R200, R203, R204: an accepted checksum copies the five bytes to the result registers and sets
`VALID`; any other ends with ChecksumMismatch, `RX` cleared, `RD` and `VALID` as they were. -/
def Obligations.ValidateGatesTheReading : Prop :=
  ∀ s t : State,
    t = { s with busy := false, done := true, upc := 0#5, ph := 0#6, errPend := .none } →
    ∃ k, exec .validate s =
      if s.rx.b4.toNat = (s.rx.b0.toNat + s.rx.b1.toNat + s.rx.b2.toNat + s.rx.b3.toNat) % 256 then
        .next { t with rd := s.rx, valid := true, err := .none, bitn := k }
      else .next { t with rx := .zero, err := .checksumMismatch, bitn := k }

/-- R177, R248: `FAIL` is `END(err_pend)`: it ends the transaction with the pending error; no line
activity. -/
def Obligations.FailReportsThePendingError : Prop :=
  ∀ s : State, ∃ k, exec .fail s = .next { s with
    err := s.errPend
    rx := if s.errPend = .none then s.rx else .zero
    busy := false
    done := true
    upc := 0#5
    ph := 0#6
    errPend := .none
    bitn := k }

/-! ## Host commands and the window -/

/-- R218, R216: with `BUSY = 0`. -/
def Obligations.AcquireSetsAcq : Prop :=
  ∀ s : State, s.busy = false → exec .acquire s = .next { s with
    scl := ⟨.input, true⟩
    sda := ⟨.input, true⟩
    acq := true
    done := true
    err := .none
    valid := false
    rd := .zero }

/-- R220, R216: with `BUSY = 0`; the latches are kept. While `BUSY = 1` it is dropped. -/
def Obligations.ReleaseClearsAcq : Prop :=
  ∀ s : State,
    (s.busy = false → exec .release s = .next { s with
      scl := ⟨.input, s.scl.lat⟩
      sda := ⟨.input, s.sda.lat⟩
      acq := false
      done := true
      err := .none
      valid := false
      rd := .zero }) ∧
    (s.busy = true → exec .release s = .next s)

/-- R222, R216: with the lines acquired a transaction starts; its first entry runs at a later step. -/
def Obligations.ReadStartsATransaction : Prop :=
  ∀ s : State, s.busy = false → s.acq = true → ∃ k, exec .read s = .next { s with
    rx := .zero
    rd := .zero
    busy := true
    done := false
    valid := false
    err := .none
    errPend := .none
    upc := 0#5
    ph := 0#6
    bitn := k
    now := 0
    tr := [] }

/-- R223, R246: without acquisition, NotAcquired and nothing else but the acceptance of R216. -/
def Obligations.ReadWithoutAcquisitionIsNotAcquired : Prop :=
  ∀ s : State, s.busy = false → s.acq = false → exec .read s = .next { s with
    err := .notAcquired
    done := true
    valid := false
    rd := .zero }

/-- R224, R245: always UnsupportedOperation, acquired or not; no primitive, no line touched. -/
def Obligations.WriteIsUnsupported : Prop :=
  ∀ s : State, s.busy = false → exec .write s = .next { s with
    err := .unsupportedOperation
    done := true
    valid := false
    rd := .zero }

/-- R225, R93, R247: any other byte written to `CMD` is accepted and completes with IllegalCommand. -/
def Obligations.ReservedCommandIsIllegal : Prop :=
  ∀ (s : State) (v : Byte), s.busy = false → (v = 0x00#8 ∨ 5 ≤ v.toNat) →
    hostAccess (.write 0 1 v) s = .next { s with
      err := .illegalCommand
      done := true
      valid := false
      rd := .zero }

/-- R226: any byte written to `CMD` while `BUSY = 1`, and each of the four commands, changes nothing. -/
def Obligations.CommandWhileBusyIsDropped : Prop :=
  ∀ s : State, s.busy = true →
    (∀ v : Byte, hostAccess (.write 0 1 v) s = .next s) ∧
    exec .acquire s = .next s ∧ exec .release s = .next s ∧ exec .read s = .next s ∧
    exec .write s = .next s

/-- R62, R63, R64: a read of any offset 0..7 returns its value and changes no register; a write to 1..7
is ignored; an access at an offset from 8 up, or of a width other than 1, is refused. A write to offset
0 is a command (R63) and is not spoken of here. -/
def Obligations.WindowAccessRules : Prop :=
  ∀ s : State,
    (∀ a : Nat, a ≤ 7 → ∃ v, hostAccess (.read a 1) s = .next { s with replies := s.replies ++ [v] } ∧
      v = match a with
        | 1 => s.status
        | 2 => s.rd.b0
        | 3 => s.rd.b1
        | 4 => s.rd.b2
        | 5 => s.rd.b3
        | 6 => s.rd.b4
        | _ => 0x00#8) ∧
    (∀ (a : Nat) (v : Byte), 1 ≤ a → a ≤ 7 → hostAccess (.write a 1 v) s = .next s) ∧
    (∀ (a width : Nat) (v : Byte), 8 ≤ a ∨ width ≠ 1 →
      hostAccess (.read a width) s = .refused .noSuchAccess ∧
      hostAccess (.write a width v) s = .refused .noSuchAccess)

/-- R37, R241: the place of every bit of `STATUS`. -/
def Obligations.StatusLayout : Prop :=
  ∀ s : State,
    s.status.getLsbD 7 = s.busy ∧ s.status.getLsbD 6 = s.done ∧ s.status.getLsbD 5 = s.acq ∧
    s.status.getLsbD 4 = s.valid ∧ s.status.getLsbD 3 = false ∧
    s.status.extractLsb' 0 3 = (match s.err with
      | .none => 0#3
      | .busBusy => 1#3
      | .ackTimeout => 2#3
      | .checksumMismatch => 3#3
      | .unsupportedOperation => 4#3
      | .notAcquired => 5#3
      | .illegalCommand => 6#3)

/-! ## The step -/

/-- The step runs the decoded operation: a microword laid at the execution unit; a command byte the
host writes; the entry of the microprogram at `upc`, when a transaction is between two entries. Around
`exec` the step only takes the word or the access away. The slot and the schedule are the model's own
(log 5, log 7). -/
def Obligations.StepRunsTheDecodedOperation : Prop :=
  ∀ (s : State) (i : Instr), s.cfg.legal = true →
    (∀ w, s.slot = some w → decodeMicro w = .ok i → step s = exec i { s with slot := none }) ∧
    (∀ v rest, s.slot = none → decodeHost v = .ok i →
      (s.inputs = .hostNow (.write 0 1 v) :: rest ∨
        s.busy = false ∧ s.inputs = .hostWhenIdle (.write 0 1 v) :: rest) →
      step s = exec i { s with inputs := rest }) ∧
    (∀ w, s.slot = none → s.busy = true → s.ph = 0#6 → microprogram[s.upc.toNat]? = some w →
      decodeMicro w = .ok i →
      (s.inputs = [] ∨ ∃ a rest, s.inputs = .hostWhenIdle a :: rest) →
      step s = exec i s)

/-- Idle with nothing asked of it, the engine waits (R259, R251). That waiting is a step is the model's
choice (log 18). -/
def Obligations.IdleEngineWaits : Prop :=
  ∀ s : State, s.cfg.legal = true → s.slot = none → s.busy = false → s.inputs = [] → step s = .next s

/-- R16, R104, R29: from the start of an entry, its primitives taken one step at a time, one for each
value of `ph` (one step for an entry without primitives), give what the entry gives in one step, trace
and refusals included. R16 allows both granularities; that the model has both is log 4. -/
def Obligations.PrimitiveStepsMakeTheEntry : Prop :=
  ∀ s : State, s.busy = true → s.ph = 0#6 →
    iterate enginePrimitive (max 1 (entryBody s.upc).length) s = runEntry s

/-- R45: the reset values; the engine is idle. -/
def Obligations.ResetIsTheResetTable : Prop :=
  State.reset.scl.dir = .input ∧ State.reset.sda.dir = .input ∧
  State.reset.scl.lat = true ∧ State.reset.sda.lat = true ∧
  State.reset.txb = 0#8 ∧ State.reset.rx = ⟨0#8, 0#8, 0#8, 0#8, 0#8⟩ ∧
  State.reset.rd = ⟨0#8, 0#8, 0#8, 0#8, 0#8⟩ ∧
  State.reset.upc = 0#5 ∧ State.reset.ph = 0#6 ∧ State.reset.bitn = 7#3 ∧
  State.reset.samp = true ∧ State.reset.samp0 = true ∧
  State.reset.busy = false ∧ State.reset.done = false ∧ State.reset.acq = false ∧
  State.reset.valid = false ∧ State.reset.err.code = 0#3 ∧ State.reset.errPend.code = 0#3 ∧
  State.reset.status = 0x00#8

/-- R270, R272: `rst`, at any boundary and in any state, puts every piece of state at its reset value
and sends nothing; configuration and environment go on. What becomes of the bookkeeping `now` and `tr`
is left open (log 9). -/
def Obligations.ResetInputResetsEverything : Prop :=
  ∀ (s : State) (rest : List Input), s.cfg.legal = true → s.slot = none → s.inputs = .reset :: rest →
    ∃ n tr, step s = .next { State.reset with
      cfg := s.cfg
      answers := s.answers
      asked := s.asked
      inputs := rest
      replies := s.replies
      now := n
      tr := tr }

/-- No operation changes the configuration, the host's schedule, what the host was told, or the slot;
and no step changes the configuration (R6: immutable). -/
def Obligations.NothingWritesTheConfiguration : Prop :=
  (∀ (i : Instr) (s t : State), exec i s = .next t →
    t.cfg = s.cfg ∧ t.inputs = s.inputs ∧ t.replies = s.replies ∧ t.slot = s.slot) ∧
  (∀ s t : State, step s = .next t → t.cfg = s.cfg)

/-! ## Invariants and whole-machine rules -/

/-- The invariant holds after reset. Its clauses on the slot and on `bitn` outside a byte operation are
the model's (log 7, log 8). -/
def Obligations.InvariantHoldsAtReset : Prop := Inv State.reset

/-- The invariant is kept by every step that answers a next state: the lines are where the rules leave
them at every primitive of every entry (R186 to R188), `upc` and `ph` stay in range (R29, R30), the
flags stay one of the visible `STATUS` values (R37), the idle state is R46's. Its clauses on the slot
and on `bitn` outside a byte operation are the model's (log 7, log 8). -/
def Obligations.EveryStepKeepsTheInvariant : Prop :=
  ∀ s t : State, Inv s → step s = .next t → Inv t

/-- No run stops: in a state of the invariant, with a legal configuration and accesses that exist, the
step answers a next state, which is such a state again. So no run reaches a refusal (R187, R188, R260). -/
def Obligations.NoRunIsRefused : Prop :=
  ∀ s : State, Inv s → s.cfg.legal = true → s.inputs.all Input.exists = true →
    ∃ t, step s = .next t ∧ Inv t ∧ t.cfg.legal = true ∧ t.inputs.all Input.exists = true

/-- R46, R37: on every run from reset, under any configuration, any answers and any schedule, the host
sees only the tabled values of `STATUS`; whenever `BUSY = 0` the lines are released with latches at 1
and the sequencer is at rest; while `BUSY = 1` a host reads `0xA0` and zero data. -/
def Obligations.EveryRunIsIdleOrInATransaction : Prop :=
  ∀ (c : Params) (as : List Level) (is : List Input) (n : Nat) (t : State),
    Host.Core.run core n { State.reset with cfg := c, answers := as, inputs := is } = .next t →
    t.status ∈ visibleStatus ∧
    (t.busy = false → t.scl = ⟨.input, true⟩ ∧ t.sda = ⟨.input, true⟩ ∧ t.upc = 0#5 ∧ t.ph = 0#6 ∧
      t.errPend = .none) ∧
    (t.busy = true → t.status = 0xA0#8 ∧ t.rd = ⟨0#8, 0#8, 0#8, 0#8, 0#8⟩ ∧ t.upc.toNat ≤ 25 ∧
      t.ph.toNat ≤ 49)

/-- R187, R188: in a transaction every `SETLVL` finds its line in direction `out` and every `GETLVL`
finds its line in direction `in`. -/
def Obligations.EveryPrimitiveFindsItsLineReady : Prop :=
  ∀ (s : State) (m : Micro), Inv s → s.busy = true → (entryBody s.upc)[s.ph.toNat]? = some m →
    match m with
    | .setLvl l _ => (s.cell l).dir = .output
    | .sendBit _ => s.sda.dir = .output
    | .getLvl l => (s.cell l).dir = .input
    | .keepFirst l => (s.cell l).dir = .input
    | .takeBit _ _ => s.sda.dir = .input
    | .setDir _ _ => True
    | .delay _ => True

/-- R186: what the engine does to the level it drives on `SDA` while it drives `SCL` high. Turning the
line out drives 1 in `START` (entry 1) and 0 at entry 4, where the peer's acknowledge holds it low; the
driven level falls in `START` and `RESTART` (entries 1 and 6) and rises in `STOP` (entries 19 and 23).
Every other change is made under a low `SCL`. -/
def Obligations.DataMovesUnderHighClockOnlyToFrame : Prop :=
  ∀ s t : State, Inv s → s.busy = true → enginePrimitive s = .next t →
    s.scl = ⟨.output, true⟩ → t.sda.drives ≠ s.sda.drives →
    (s.sda.drives = none ∧
      (s.upc = 1#5 ∧ t.sda.drives = some true ∨ s.upc = 4#5 ∧ t.sda.drives = some false)) ∨
    (s.sda.drives = some true ∧ t.sda.drives = some false ∧ (s.upc = 1#5 ∨ s.upc = 6#5)) ∨
    (s.sda.drives = some false ∧ t.sda.drives = some true ∧ (s.upc = 19#5 ∨ s.upc = 23#5))

/-- R162, R253: within an entry the sequencer moves to the next primitive; after its last one it moves
to the next entry, or from entries 3, 5, 8 to the abort tail, or the transaction ends, at entries 0, 21
and 25 only, where 21 and 25 always end it. -/
def Obligations.ControlTransfersOnlyAtTheEndOfAnEntry : Prop :=
  ∀ s t : State, Inv s → s.busy = true → enginePrimitive s = .next t →
    (t.busy = true ∧ t.upc = s.upc ∧ t.ph = s.ph + 1#6 ∧
      s.ph.toNat + 1 < (entryBody s.upc).length) ∨
    ((entryBody s.upc).length ≤ s.ph.toNat + 1 ∧ t.ph = 0#6 ∧
      ((t.busy = true ∧ t.upc = s.upc + 1#5 ∧ s.upc ≠ 21#5 ∧ s.upc ≠ 25#5) ∨
       (t.busy = true ∧ t.upc = 22#5 ∧ t.errPend = .ackTimeout ∧
         (s.upc = 3#5 ∨ s.upc = 5#5 ∨ s.upc = 8#5)) ∨
       (t.busy = false ∧ t.done = true ∧ t.upc = 0#5 ∧
         (s.upc = 0#5 ∨ s.upc = 21#5 ∨ s.upc = 25#5))))

/-- R27: inside a byte operation, from phase 2 on, `bitn` is `7 - (ph - 2) div 6`, on every run. -/
def Obligations.BitIndexFollowsThePhase : Prop :=
  ∀ s : State, Inv s → s.busy = true → (entryBody s.upc).length = 50 → 2 ≤ s.ph.toNat →
    s.bitn.toNat = 7 - (s.ph.toNat - 2) / 6

/-- R26, R65: the result registers change in two ways only: to zero, when a command is accepted or at
reset; to the received bytes, all five at once, when `VALIDATE` succeeds. -/
def Obligations.ResultChangesOnlyWholly : Prop :=
  ∀ s t : State, Inv s → step s = .next t → t.rd ≠ s.rd →
    (s.busy = false ∧ t.rd = .zero ∧ t.valid = false) ∨
    (s.busy = true ∧ s.upc = 21#5 ∧ t.rd = s.rx ∧ t.valid = true ∧ t.busy = false ∧
      s.rx.accepted = true)

/-- R71, R226, R62: during a transaction no host access touches the engine: a step that serves one
changes only the schedule and what the host was told, which is `0xA0` for `STATUS` and zero for the
rest. -/
def Obligations.HostCannotDisturbATransaction : Prop :=
  ∀ (s t : State) (a : Access) (rest : List Input), Inv s → s.busy = true →
    s.inputs = .hostNow a :: rest → step s = .next t →
    (∃ n v, a = .write n 1 v ∧ t = { s with inputs := rest }) ∨
    (∃ n, a = .read n 1 ∧ t = { s with
      inputs := rest
      replies := s.replies ++ [if n = 1 then 0xA0#8 else 0x00#8] })

/-- R227: once a command has completed, reads, writes to offsets other than 0, and waiting leave every
register, and so every value the host can read, as it is. -/
def Obligations.ResultStaysUntilTheNextCommand : Prop :=
  ∀ s t : State, s.slot = none → s.busy = false → step s = .next t →
    (∀ v rest, s.inputs ≠ .hostNow (.write 0 1 v) :: rest ∧
      s.inputs ≠ .hostWhenIdle (.write 0 1 v) :: rest) →
    (∀ rest, s.inputs ≠ .reset :: rest) →
    t = { s with inputs := t.inputs, replies := t.replies } ∧
    ∀ a : Nat, t.window a = s.window a

/-- R73, R162: every transaction ends: from any entry of one, undisturbed, 22 steps later `BUSY` is 0
and `DONE` is 1. -/
def Obligations.EveryTransactionEnds : Prop :=
  ∀ s : State, Inv s → s.cfg.legal = true → s.busy = true → s.ph = 0#6 → s.inputs = [] →
    ∃ t, Host.Core.run core 22 s = .next t ∧ t.busy = false ∧ t.done = true

/-- R228: a `READ` with the lines acquired ends as the call view says, for every sequence of the
environment's answers. -/
def Obligations.ReadAgreesWithTheCallView : Prop :=
  ∀ s : State, Inv s → s.cfg.legal = true → s.busy = false → s.acq = true → s.inputs = [] →
    ∃ u t, exec .read s = .next u ∧ Host.Core.run core 22 u = .next t ∧
      t.callResult = callView s.level ∧ t.busy = false

/-- R189, R290: samples, primitives and duration of each kind of run; a quarter cycle is the unit. The
durations are the nominal ones, and so minima of the real ones (R278, log 10); the longest is 302 quarter
cycles, where R209 writes 151 (log 19). -/
def Obligations.LengthsOfTheFiveRuns : Prop :=
  ∀ s : State, Inv s → s.cfg.legal = true → s.busy = false → s.acq = true → s.inputs = [] →
    ∃ u t, exec .read s = .next u ∧ Host.Core.run core 22 u = .next t ∧
      t.asked = s.asked + (runLengths s.level).1 ∧
      samples t.tr = (runLengths s.level).1 ∧
      t.tr.length = (runLengths s.level).2.1 ∧
      t.now = (runLengths s.level).2.2 * s.cfg.us .q

/-- R242, R163: a `READ` that ends BusBusy performs two samples and no other primitive, and leaves the
state as it was but for the acceptance and the start (R216, R222: `RX`, `RD` and `VALID` cleared, `now` and
`tr` restarted), the error and the samples. -/
def Obligations.BusBusyTouchesNoLine : Prop :=
  ∀ s : State, Inv s → s.busy = false → s.acq = true → (s.level 0 = false ∨ s.level 1 = false) →
    ∃ u k, exec .read s = .next u ∧ exec .idlechk u = .next { s with
      rx := .zero
      rd := .zero
      valid := false
      err := .busBusy
      done := true
      samp0 := s.level 0
      samp := s.level 1
      answers := s.answers.drop 2
      asked := s.asked + 2
      bitn := k
      now := 0
      tr := [⟨0, .smp .scl (s.level 0)⟩, ⟨0, .smp .sda (s.level 1)⟩] }

/-- R178, R243: the abort tail has no sample and no branch: from its first entry, undisturbed, four
steps release both lines and report AckTimeout, 10 quarter cycles later. -/
def Obligations.AbortTailReportsAckTimeout : Prop :=
  ∀ s : State, Inv s → s.cfg.legal = true → s.busy = true → s.upc = 22#5 → s.ph = 0#6 → s.inputs = [] →
    ∃ t, Host.Core.run core 4 s = .next t ∧ t.busy = false ∧ t.done = true ∧ t.err = .ackTimeout ∧
      t.scl = ⟨.input, true⟩ ∧ t.sda = ⟨.input, true⟩ ∧ t.rx = ⟨0#8, 0#8, 0#8, 0#8, 0#8⟩ ∧
      t.asked = s.asked ∧ t.now = s.now + 10 * s.cfg.us .q
end

