-- ==== Sys2Proof/Laws/State.lean ====
section
/-!
SUPPORT. One lemma per field per update of the state, so that no later proof unfolds a record update.
-/

namespace Sys2Proof.Machine

/-! ### `setCell` -/

@[simp] theorem State.setCell_scl (s : State) (l : Line) (c : Cell) :
    (s.setCell l c).scl = if l = .scl then c else s.scl := by cases l <;> rfl
@[simp] theorem State.setCell_sda (s : State) (l : Line) (c : Cell) :
    (s.setCell l c).sda = if l = .sda then c else s.sda := by cases l <;> rfl
@[simp] theorem State.setCell_txb (s : State) (l : Line) (c : Cell) :
    (s.setCell l c).txb = s.txb := by cases l <;> rfl
@[simp] theorem State.setCell_rx (s : State) (l : Line) (c : Cell) :
    (s.setCell l c).rx = s.rx := by cases l <;> rfl
@[simp] theorem State.setCell_rd (s : State) (l : Line) (c : Cell) :
    (s.setCell l c).rd = s.rd := by cases l <;> rfl
@[simp] theorem State.setCell_upc (s : State) (l : Line) (c : Cell) :
    (s.setCell l c).upc = s.upc := by cases l <;> rfl
@[simp] theorem State.setCell_ph (s : State) (l : Line) (c : Cell) :
    (s.setCell l c).ph = s.ph := by cases l <;> rfl
@[simp] theorem State.setCell_bitn (s : State) (l : Line) (c : Cell) :
    (s.setCell l c).bitn = s.bitn := by cases l <;> rfl
@[simp] theorem State.setCell_samp (s : State) (l : Line) (c : Cell) :
    (s.setCell l c).samp = s.samp := by cases l <;> rfl
@[simp] theorem State.setCell_samp0 (s : State) (l : Line) (c : Cell) :
    (s.setCell l c).samp0 = s.samp0 := by cases l <;> rfl
@[simp] theorem State.setCell_busy (s : State) (l : Line) (c : Cell) :
    (s.setCell l c).busy = s.busy := by cases l <;> rfl
@[simp] theorem State.setCell_done (s : State) (l : Line) (c : Cell) :
    (s.setCell l c).done = s.done := by cases l <;> rfl
@[simp] theorem State.setCell_acq (s : State) (l : Line) (c : Cell) :
    (s.setCell l c).acq = s.acq := by cases l <;> rfl
@[simp] theorem State.setCell_valid (s : State) (l : Line) (c : Cell) :
    (s.setCell l c).valid = s.valid := by cases l <;> rfl
@[simp] theorem State.setCell_err (s : State) (l : Line) (c : Cell) :
    (s.setCell l c).err = s.err := by cases l <;> rfl
@[simp] theorem State.setCell_errPend (s : State) (l : Line) (c : Cell) :
    (s.setCell l c).errPend = s.errPend := by cases l <;> rfl
@[simp] theorem State.setCell_now (s : State) (l : Line) (c : Cell) :
    (s.setCell l c).now = s.now := by cases l <;> rfl
@[simp] theorem State.setCell_tr (s : State) (l : Line) (c : Cell) :
    (s.setCell l c).tr = s.tr := by cases l <;> rfl
@[simp] theorem State.setCell_cfg (s : State) (l : Line) (c : Cell) :
    (s.setCell l c).cfg = s.cfg := by cases l <;> rfl
@[simp] theorem State.setCell_answers (s : State) (l : Line) (c : Cell) :
    (s.setCell l c).answers = s.answers := by cases l <;> rfl
@[simp] theorem State.setCell_asked (s : State) (l : Line) (c : Cell) :
    (s.setCell l c).asked = s.asked := by cases l <;> rfl
@[simp] theorem State.setCell_inputs (s : State) (l : Line) (c : Cell) :
    (s.setCell l c).inputs = s.inputs := by cases l <;> rfl
@[simp] theorem State.setCell_replies (s : State) (l : Line) (c : Cell) :
    (s.setCell l c).replies = s.replies := by cases l <;> rfl
@[simp] theorem State.setCell_slot (s : State) (l : Line) (c : Cell) :
    (s.setCell l c).slot = s.slot := by cases l <;> rfl

/-! ### `setPh` -/

@[simp] theorem State.setPh_scl (s : State) (p : BitVec 6) : (s.setPh p).scl = s.scl := rfl
@[simp] theorem State.setPh_sda (s : State) (p : BitVec 6) : (s.setPh p).sda = s.sda := rfl
@[simp] theorem State.setPh_txb (s : State) (p : BitVec 6) : (s.setPh p).txb = s.txb := rfl
@[simp] theorem State.setPh_rx (s : State) (p : BitVec 6) : (s.setPh p).rx = s.rx := rfl
@[simp] theorem State.setPh_rd (s : State) (p : BitVec 6) : (s.setPh p).rd = s.rd := rfl
@[simp] theorem State.setPh_upc (s : State) (p : BitVec 6) : (s.setPh p).upc = s.upc := rfl
@[simp] theorem State.setPh_ph (s : State) (p : BitVec 6) : (s.setPh p).ph = p := rfl
@[simp] theorem State.setPh_bitn (s : State) (p : BitVec 6) : (s.setPh p).bitn = bitnOf p := rfl
@[simp] theorem State.setPh_samp (s : State) (p : BitVec 6) : (s.setPh p).samp = s.samp := rfl
@[simp] theorem State.setPh_samp0 (s : State) (p : BitVec 6) : (s.setPh p).samp0 = s.samp0 := rfl
@[simp] theorem State.setPh_busy (s : State) (p : BitVec 6) : (s.setPh p).busy = s.busy := rfl
@[simp] theorem State.setPh_done (s : State) (p : BitVec 6) : (s.setPh p).done = s.done := rfl
@[simp] theorem State.setPh_acq (s : State) (p : BitVec 6) : (s.setPh p).acq = s.acq := rfl
@[simp] theorem State.setPh_valid (s : State) (p : BitVec 6) : (s.setPh p).valid = s.valid := rfl
@[simp] theorem State.setPh_err (s : State) (p : BitVec 6) : (s.setPh p).err = s.err := rfl
@[simp] theorem State.setPh_errPend (s : State) (p : BitVec 6) :
    (s.setPh p).errPend = s.errPend := rfl
@[simp] theorem State.setPh_now (s : State) (p : BitVec 6) : (s.setPh p).now = s.now := rfl
@[simp] theorem State.setPh_tr (s : State) (p : BitVec 6) : (s.setPh p).tr = s.tr := rfl
@[simp] theorem State.setPh_cfg (s : State) (p : BitVec 6) : (s.setPh p).cfg = s.cfg := rfl
@[simp] theorem State.setPh_answers (s : State) (p : BitVec 6) :
    (s.setPh p).answers = s.answers := rfl
@[simp] theorem State.setPh_asked (s : State) (p : BitVec 6) : (s.setPh p).asked = s.asked := rfl
@[simp] theorem State.setPh_inputs (s : State) (p : BitVec 6) : (s.setPh p).inputs = s.inputs := rfl
@[simp] theorem State.setPh_replies (s : State) (p : BitVec 6) :
    (s.setPh p).replies = s.replies := rfl
@[simp] theorem State.setPh_slot (s : State) (p : BitVec 6) : (s.setPh p).slot = s.slot := rfl

/-! ### `performed` -/

@[simp] theorem State.performed_scl (s : State) (a : Act) : (s.performed a).scl = s.scl := rfl
@[simp] theorem State.performed_sda (s : State) (a : Act) : (s.performed a).sda = s.sda := rfl
@[simp] theorem State.performed_txb (s : State) (a : Act) : (s.performed a).txb = s.txb := rfl
@[simp] theorem State.performed_rx (s : State) (a : Act) : (s.performed a).rx = s.rx := rfl
@[simp] theorem State.performed_rd (s : State) (a : Act) : (s.performed a).rd = s.rd := rfl
@[simp] theorem State.performed_upc (s : State) (a : Act) : (s.performed a).upc = s.upc := rfl
@[simp] theorem State.performed_ph (s : State) (a : Act) : (s.performed a).ph = s.ph + 1#6 := rfl
@[simp] theorem State.performed_bitn (s : State) (a : Act) :
    (s.performed a).bitn = bitnOf (s.ph + 1#6) := rfl
@[simp] theorem State.performed_samp (s : State) (a : Act) : (s.performed a).samp = s.samp := rfl
@[simp] theorem State.performed_samp0 (s : State) (a : Act) : (s.performed a).samp0 = s.samp0 := rfl
@[simp] theorem State.performed_busy (s : State) (a : Act) : (s.performed a).busy = s.busy := rfl
@[simp] theorem State.performed_done (s : State) (a : Act) : (s.performed a).done = s.done := rfl
@[simp] theorem State.performed_acq (s : State) (a : Act) : (s.performed a).acq = s.acq := rfl
@[simp] theorem State.performed_valid (s : State) (a : Act) : (s.performed a).valid = s.valid := rfl
@[simp] theorem State.performed_err (s : State) (a : Act) : (s.performed a).err = s.err := rfl
@[simp] theorem State.performed_errPend (s : State) (a : Act) :
    (s.performed a).errPend = s.errPend := rfl
@[simp] theorem State.performed_now (s : State) (a : Act) : (s.performed a).now = s.now := rfl
@[simp] theorem State.performed_tr (s : State) (a : Act) :
    (s.performed a).tr = s.tr ++ [⟨s.now, a⟩] := rfl
@[simp] theorem State.performed_cfg (s : State) (a : Act) : (s.performed a).cfg = s.cfg := rfl
@[simp] theorem State.performed_answers (s : State) (a : Act) :
    (s.performed a).answers = s.answers := rfl
@[simp] theorem State.performed_asked (s : State) (a : Act) : (s.performed a).asked = s.asked := rfl
@[simp] theorem State.performed_inputs (s : State) (a : Act) :
    (s.performed a).inputs = s.inputs := rfl
@[simp] theorem State.performed_replies (s : State) (a : Act) :
    (s.performed a).replies = s.replies := rfl
@[simp] theorem State.performed_slot (s : State) (a : Act) : (s.performed a).slot = s.slot := rfl

/-! ### `sampled` -/

@[simp] theorem State.sampled_scl (s : State) : (s.sampled).scl = s.scl := rfl
@[simp] theorem State.sampled_sda (s : State) : (s.sampled).sda = s.sda := rfl
@[simp] theorem State.sampled_txb (s : State) : (s.sampled).txb = s.txb := rfl
@[simp] theorem State.sampled_rx (s : State) : (s.sampled).rx = s.rx := rfl
@[simp] theorem State.sampled_rd (s : State) : (s.sampled).rd = s.rd := rfl
@[simp] theorem State.sampled_upc (s : State) : (s.sampled).upc = s.upc := rfl
@[simp] theorem State.sampled_ph (s : State) : (s.sampled).ph = s.ph := rfl
@[simp] theorem State.sampled_bitn (s : State) : (s.sampled).bitn = s.bitn := rfl
@[simp] theorem State.sampled_samp (s : State) : (s.sampled).samp = s.level 0 := rfl
@[simp] theorem State.sampled_samp0 (s : State) : (s.sampled).samp0 = s.samp0 := rfl
@[simp] theorem State.sampled_busy (s : State) : (s.sampled).busy = s.busy := rfl
@[simp] theorem State.sampled_done (s : State) : (s.sampled).done = s.done := rfl
@[simp] theorem State.sampled_acq (s : State) : (s.sampled).acq = s.acq := rfl
@[simp] theorem State.sampled_valid (s : State) : (s.sampled).valid = s.valid := rfl
@[simp] theorem State.sampled_err (s : State) : (s.sampled).err = s.err := rfl
@[simp] theorem State.sampled_errPend (s : State) : (s.sampled).errPend = s.errPend := rfl
@[simp] theorem State.sampled_now (s : State) : (s.sampled).now = s.now := rfl
@[simp] theorem State.sampled_tr (s : State) : (s.sampled).tr = s.tr := rfl
@[simp] theorem State.sampled_cfg (s : State) : (s.sampled).cfg = s.cfg := rfl
@[simp] theorem State.sampled_answers (s : State) : (s.sampled).answers = s.answers.drop 1 := rfl
@[simp] theorem State.sampled_asked (s : State) : (s.sampled).asked = s.asked + 1 := rfl
@[simp] theorem State.sampled_inputs (s : State) : (s.sampled).inputs = s.inputs := rfl
@[simp] theorem State.sampled_replies (s : State) : (s.sampled).replies = s.replies := rfl
@[simp] theorem State.sampled_slot (s : State) : (s.sampled).slot = s.slot := rfl

/-! ### `keepSample` -/

@[simp] theorem State.keepSample_scl (s : State) : (s.keepSample).scl = s.scl := rfl
@[simp] theorem State.keepSample_sda (s : State) : (s.keepSample).sda = s.sda := rfl
@[simp] theorem State.keepSample_txb (s : State) : (s.keepSample).txb = s.txb := rfl
@[simp] theorem State.keepSample_rx (s : State) : (s.keepSample).rx = s.rx := rfl
@[simp] theorem State.keepSample_rd (s : State) : (s.keepSample).rd = s.rd := rfl
@[simp] theorem State.keepSample_upc (s : State) : (s.keepSample).upc = s.upc := rfl
@[simp] theorem State.keepSample_ph (s : State) : (s.keepSample).ph = s.ph := rfl
@[simp] theorem State.keepSample_bitn (s : State) : (s.keepSample).bitn = s.bitn := rfl
@[simp] theorem State.keepSample_samp (s : State) : (s.keepSample).samp = s.samp := rfl
@[simp] theorem State.keepSample_samp0 (s : State) : (s.keepSample).samp0 = s.samp := rfl
@[simp] theorem State.keepSample_busy (s : State) : (s.keepSample).busy = s.busy := rfl
@[simp] theorem State.keepSample_done (s : State) : (s.keepSample).done = s.done := rfl
@[simp] theorem State.keepSample_acq (s : State) : (s.keepSample).acq = s.acq := rfl
@[simp] theorem State.keepSample_valid (s : State) : (s.keepSample).valid = s.valid := rfl
@[simp] theorem State.keepSample_err (s : State) : (s.keepSample).err = s.err := rfl
@[simp] theorem State.keepSample_errPend (s : State) : (s.keepSample).errPend = s.errPend := rfl
@[simp] theorem State.keepSample_now (s : State) : (s.keepSample).now = s.now := rfl
@[simp] theorem State.keepSample_tr (s : State) : (s.keepSample).tr = s.tr := rfl
@[simp] theorem State.keepSample_cfg (s : State) : (s.keepSample).cfg = s.cfg := rfl
@[simp] theorem State.keepSample_answers (s : State) : (s.keepSample).answers = s.answers := rfl
@[simp] theorem State.keepSample_asked (s : State) : (s.keepSample).asked = s.asked := rfl
@[simp] theorem State.keepSample_inputs (s : State) : (s.keepSample).inputs = s.inputs := rfl
@[simp] theorem State.keepSample_replies (s : State) : (s.keepSample).replies = s.replies := rfl
@[simp] theorem State.keepSample_slot (s : State) : (s.keepSample).slot = s.slot := rfl

/-! ### `storeBit` -/

@[simp] theorem State.storeBit_scl (s : State) (k : Fin 5) (n : BitVec 3) :
    (s.storeBit k n).scl = s.scl := rfl
@[simp] theorem State.storeBit_sda (s : State) (k : Fin 5) (n : BitVec 3) :
    (s.storeBit k n).sda = s.sda := rfl
@[simp] theorem State.storeBit_txb (s : State) (k : Fin 5) (n : BitVec 3) :
    (s.storeBit k n).txb = s.txb := rfl
@[simp] theorem State.storeBit_rx (s : State) (k : Fin 5) (n : BitVec 3) :
    (s.storeBit k n).rx = s.rx.set k (insertBit (s.rx.get k) n s.samp) := rfl
@[simp] theorem State.storeBit_rd (s : State) (k : Fin 5) (n : BitVec 3) :
    (s.storeBit k n).rd = s.rd := rfl
@[simp] theorem State.storeBit_upc (s : State) (k : Fin 5) (n : BitVec 3) :
    (s.storeBit k n).upc = s.upc := rfl
@[simp] theorem State.storeBit_ph (s : State) (k : Fin 5) (n : BitVec 3) :
    (s.storeBit k n).ph = s.ph := rfl
@[simp] theorem State.storeBit_bitn (s : State) (k : Fin 5) (n : BitVec 3) :
    (s.storeBit k n).bitn = s.bitn := rfl
@[simp] theorem State.storeBit_samp (s : State) (k : Fin 5) (n : BitVec 3) :
    (s.storeBit k n).samp = s.samp := rfl
@[simp] theorem State.storeBit_samp0 (s : State) (k : Fin 5) (n : BitVec 3) :
    (s.storeBit k n).samp0 = s.samp0 := rfl
@[simp] theorem State.storeBit_busy (s : State) (k : Fin 5) (n : BitVec 3) :
    (s.storeBit k n).busy = s.busy := rfl
@[simp] theorem State.storeBit_done (s : State) (k : Fin 5) (n : BitVec 3) :
    (s.storeBit k n).done = s.done := rfl
@[simp] theorem State.storeBit_acq (s : State) (k : Fin 5) (n : BitVec 3) :
    (s.storeBit k n).acq = s.acq := rfl
@[simp] theorem State.storeBit_valid (s : State) (k : Fin 5) (n : BitVec 3) :
    (s.storeBit k n).valid = s.valid := rfl
@[simp] theorem State.storeBit_err (s : State) (k : Fin 5) (n : BitVec 3) :
    (s.storeBit k n).err = s.err := rfl
@[simp] theorem State.storeBit_errPend (s : State) (k : Fin 5) (n : BitVec 3) :
    (s.storeBit k n).errPend = s.errPend := rfl
@[simp] theorem State.storeBit_now (s : State) (k : Fin 5) (n : BitVec 3) :
    (s.storeBit k n).now = s.now := rfl
@[simp] theorem State.storeBit_tr (s : State) (k : Fin 5) (n : BitVec 3) :
    (s.storeBit k n).tr = s.tr := rfl
@[simp] theorem State.storeBit_cfg (s : State) (k : Fin 5) (n : BitVec 3) :
    (s.storeBit k n).cfg = s.cfg := rfl
@[simp] theorem State.storeBit_answers (s : State) (k : Fin 5) (n : BitVec 3) :
    (s.storeBit k n).answers = s.answers := rfl
@[simp] theorem State.storeBit_asked (s : State) (k : Fin 5) (n : BitVec 3) :
    (s.storeBit k n).asked = s.asked := rfl
@[simp] theorem State.storeBit_inputs (s : State) (k : Fin 5) (n : BitVec 3) :
    (s.storeBit k n).inputs = s.inputs := rfl
@[simp] theorem State.storeBit_replies (s : State) (k : Fin 5) (n : BitVec 3) :
    (s.storeBit k n).replies = s.replies := rfl
@[simp] theorem State.storeBit_slot (s : State) (k : Fin 5) (n : BitVec 3) :
    (s.storeBit k n).slot = s.slot := rfl

/-! ### `setDir` -/

@[simp] theorem State.setDir_scl (s : State) (l : Line) (d : Dir) :
    (s.setDir l d).scl = if l = .scl then s.scl.turn d else s.scl := by cases l <;> rfl
@[simp] theorem State.setDir_sda (s : State) (l : Line) (d : Dir) :
    (s.setDir l d).sda = if l = .sda then s.sda.turn d else s.sda := by cases l <;> rfl
@[simp] theorem State.setDir_txb (s : State) (l : Line) (d : Dir) :
    (s.setDir l d).txb = s.txb := by cases l <;> rfl
@[simp] theorem State.setDir_rx (s : State) (l : Line) (d : Dir) :
    (s.setDir l d).rx = s.rx := by cases l <;> rfl
@[simp] theorem State.setDir_rd (s : State) (l : Line) (d : Dir) :
    (s.setDir l d).rd = s.rd := by cases l <;> rfl
@[simp] theorem State.setDir_upc (s : State) (l : Line) (d : Dir) :
    (s.setDir l d).upc = s.upc := by cases l <;> rfl
@[simp] theorem State.setDir_ph (s : State) (l : Line) (d : Dir) :
    (s.setDir l d).ph = s.ph + 1#6 := by cases l <;> rfl
@[simp] theorem State.setDir_bitn (s : State) (l : Line) (d : Dir) :
    (s.setDir l d).bitn = bitnOf (s.ph + 1#6) := by cases l <;> rfl
@[simp] theorem State.setDir_samp (s : State) (l : Line) (d : Dir) :
    (s.setDir l d).samp = s.samp := by cases l <;> rfl
@[simp] theorem State.setDir_samp0 (s : State) (l : Line) (d : Dir) :
    (s.setDir l d).samp0 = s.samp0 := by cases l <;> rfl
@[simp] theorem State.setDir_busy (s : State) (l : Line) (d : Dir) :
    (s.setDir l d).busy = s.busy := by cases l <;> rfl
@[simp] theorem State.setDir_done (s : State) (l : Line) (d : Dir) :
    (s.setDir l d).done = s.done := by cases l <;> rfl
@[simp] theorem State.setDir_acq (s : State) (l : Line) (d : Dir) :
    (s.setDir l d).acq = s.acq := by cases l <;> rfl
@[simp] theorem State.setDir_valid (s : State) (l : Line) (d : Dir) :
    (s.setDir l d).valid = s.valid := by cases l <;> rfl
@[simp] theorem State.setDir_err (s : State) (l : Line) (d : Dir) :
    (s.setDir l d).err = s.err := by cases l <;> rfl
@[simp] theorem State.setDir_errPend (s : State) (l : Line) (d : Dir) :
    (s.setDir l d).errPend = s.errPend := by cases l <;> rfl
@[simp] theorem State.setDir_now (s : State) (l : Line) (d : Dir) :
    (s.setDir l d).now = s.now := by cases l <;> rfl
@[simp] theorem State.setDir_tr (s : State) (l : Line) (d : Dir) :
    (s.setDir l d).tr = s.tr ++ [⟨s.now, .dir l d⟩] := by cases l <;> rfl
@[simp] theorem State.setDir_cfg (s : State) (l : Line) (d : Dir) :
    (s.setDir l d).cfg = s.cfg := by cases l <;> rfl
@[simp] theorem State.setDir_answers (s : State) (l : Line) (d : Dir) :
    (s.setDir l d).answers = s.answers := by cases l <;> rfl
@[simp] theorem State.setDir_asked (s : State) (l : Line) (d : Dir) :
    (s.setDir l d).asked = s.asked := by cases l <;> rfl
@[simp] theorem State.setDir_inputs (s : State) (l : Line) (d : Dir) :
    (s.setDir l d).inputs = s.inputs := by cases l <;> rfl
@[simp] theorem State.setDir_replies (s : State) (l : Line) (d : Dir) :
    (s.setDir l d).replies = s.replies := by cases l <;> rfl
@[simp] theorem State.setDir_slot (s : State) (l : Line) (d : Dir) :
    (s.setDir l d).slot = s.slot := by cases l <;> rfl

/-! ### `setLvl` -/

@[simp] theorem State.setLvl_scl (s : State) (l : Line) (v : Level) :
    (s.setLvl l v).scl = if l = .scl then s.scl.drive v else s.scl := by cases l <;> rfl
@[simp] theorem State.setLvl_sda (s : State) (l : Line) (v : Level) :
    (s.setLvl l v).sda = if l = .sda then s.sda.drive v else s.sda := by cases l <;> rfl
@[simp] theorem State.setLvl_txb (s : State) (l : Line) (v : Level) :
    (s.setLvl l v).txb = s.txb := by cases l <;> rfl
@[simp] theorem State.setLvl_rx (s : State) (l : Line) (v : Level) :
    (s.setLvl l v).rx = s.rx := by cases l <;> rfl
@[simp] theorem State.setLvl_rd (s : State) (l : Line) (v : Level) :
    (s.setLvl l v).rd = s.rd := by cases l <;> rfl
@[simp] theorem State.setLvl_upc (s : State) (l : Line) (v : Level) :
    (s.setLvl l v).upc = s.upc := by cases l <;> rfl
@[simp] theorem State.setLvl_ph (s : State) (l : Line) (v : Level) :
    (s.setLvl l v).ph = s.ph + 1#6 := by cases l <;> rfl
@[simp] theorem State.setLvl_bitn (s : State) (l : Line) (v : Level) :
    (s.setLvl l v).bitn = bitnOf (s.ph + 1#6) := by cases l <;> rfl
@[simp] theorem State.setLvl_samp (s : State) (l : Line) (v : Level) :
    (s.setLvl l v).samp = s.samp := by cases l <;> rfl
@[simp] theorem State.setLvl_samp0 (s : State) (l : Line) (v : Level) :
    (s.setLvl l v).samp0 = s.samp0 := by cases l <;> rfl
@[simp] theorem State.setLvl_busy (s : State) (l : Line) (v : Level) :
    (s.setLvl l v).busy = s.busy := by cases l <;> rfl
@[simp] theorem State.setLvl_done (s : State) (l : Line) (v : Level) :
    (s.setLvl l v).done = s.done := by cases l <;> rfl
@[simp] theorem State.setLvl_acq (s : State) (l : Line) (v : Level) :
    (s.setLvl l v).acq = s.acq := by cases l <;> rfl
@[simp] theorem State.setLvl_valid (s : State) (l : Line) (v : Level) :
    (s.setLvl l v).valid = s.valid := by cases l <;> rfl
@[simp] theorem State.setLvl_err (s : State) (l : Line) (v : Level) :
    (s.setLvl l v).err = s.err := by cases l <;> rfl
@[simp] theorem State.setLvl_errPend (s : State) (l : Line) (v : Level) :
    (s.setLvl l v).errPend = s.errPend := by cases l <;> rfl
@[simp] theorem State.setLvl_now (s : State) (l : Line) (v : Level) :
    (s.setLvl l v).now = s.now := by cases l <;> rfl
@[simp] theorem State.setLvl_tr (s : State) (l : Line) (v : Level) :
    (s.setLvl l v).tr = s.tr ++ [⟨s.now, .lvl l v⟩] := by cases l <;> rfl
@[simp] theorem State.setLvl_cfg (s : State) (l : Line) (v : Level) :
    (s.setLvl l v).cfg = s.cfg := by cases l <;> rfl
@[simp] theorem State.setLvl_answers (s : State) (l : Line) (v : Level) :
    (s.setLvl l v).answers = s.answers := by cases l <;> rfl
@[simp] theorem State.setLvl_asked (s : State) (l : Line) (v : Level) :
    (s.setLvl l v).asked = s.asked := by cases l <;> rfl
@[simp] theorem State.setLvl_inputs (s : State) (l : Line) (v : Level) :
    (s.setLvl l v).inputs = s.inputs := by cases l <;> rfl
@[simp] theorem State.setLvl_replies (s : State) (l : Line) (v : Level) :
    (s.setLvl l v).replies = s.replies := by cases l <;> rfl
@[simp] theorem State.setLvl_slot (s : State) (l : Line) (v : Level) :
    (s.setLvl l v).slot = s.slot := by cases l <;> rfl

/-! ### `delay` -/

@[simp] theorem State.delay_scl (s : State) (d : Dur) : (s.delay d).scl = s.scl := rfl
@[simp] theorem State.delay_sda (s : State) (d : Dur) : (s.delay d).sda = s.sda := rfl
@[simp] theorem State.delay_txb (s : State) (d : Dur) : (s.delay d).txb = s.txb := rfl
@[simp] theorem State.delay_rx (s : State) (d : Dur) : (s.delay d).rx = s.rx := rfl
@[simp] theorem State.delay_rd (s : State) (d : Dur) : (s.delay d).rd = s.rd := rfl
@[simp] theorem State.delay_upc (s : State) (d : Dur) : (s.delay d).upc = s.upc := rfl
@[simp] theorem State.delay_ph (s : State) (d : Dur) : (s.delay d).ph = s.ph + 1#6 := rfl
@[simp] theorem State.delay_bitn (s : State) (d : Dur) :
    (s.delay d).bitn = bitnOf (s.ph + 1#6) := rfl
@[simp] theorem State.delay_samp (s : State) (d : Dur) : (s.delay d).samp = s.samp := rfl
@[simp] theorem State.delay_samp0 (s : State) (d : Dur) : (s.delay d).samp0 = s.samp0 := rfl
@[simp] theorem State.delay_busy (s : State) (d : Dur) : (s.delay d).busy = s.busy := rfl
@[simp] theorem State.delay_done (s : State) (d : Dur) : (s.delay d).done = s.done := rfl
@[simp] theorem State.delay_acq (s : State) (d : Dur) : (s.delay d).acq = s.acq := rfl
@[simp] theorem State.delay_valid (s : State) (d : Dur) : (s.delay d).valid = s.valid := rfl
@[simp] theorem State.delay_err (s : State) (d : Dur) : (s.delay d).err = s.err := rfl
@[simp] theorem State.delay_errPend (s : State) (d : Dur) : (s.delay d).errPend = s.errPend := rfl
@[simp] theorem State.delay_now (s : State) (d : Dur) : (s.delay d).now = s.now + s.cfg.us d := rfl
@[simp] theorem State.delay_tr (s : State) (d : Dur) :
    (s.delay d).tr = s.tr ++ [⟨s.now, .dly (s.cfg.us d)⟩] := rfl
@[simp] theorem State.delay_cfg (s : State) (d : Dur) : (s.delay d).cfg = s.cfg := rfl
@[simp] theorem State.delay_answers (s : State) (d : Dur) : (s.delay d).answers = s.answers := rfl
@[simp] theorem State.delay_asked (s : State) (d : Dur) : (s.delay d).asked = s.asked := rfl
@[simp] theorem State.delay_inputs (s : State) (d : Dur) : (s.delay d).inputs = s.inputs := rfl
@[simp] theorem State.delay_replies (s : State) (d : Dur) : (s.delay d).replies = s.replies := rfl
@[simp] theorem State.delay_slot (s : State) (d : Dur) : (s.delay d).slot = s.slot := rfl

/-! ### `nextEntry` -/

@[simp] theorem State.nextEntry_scl (s : State) : (s.nextEntry).scl = s.scl := rfl
@[simp] theorem State.nextEntry_sda (s : State) : (s.nextEntry).sda = s.sda := rfl
@[simp] theorem State.nextEntry_txb (s : State) : (s.nextEntry).txb = s.txb := rfl
@[simp] theorem State.nextEntry_rx (s : State) : (s.nextEntry).rx = s.rx := rfl
@[simp] theorem State.nextEntry_rd (s : State) : (s.nextEntry).rd = s.rd := rfl
@[simp] theorem State.nextEntry_upc (s : State) : (s.nextEntry).upc = s.upc + 1#5 := rfl
@[simp] theorem State.nextEntry_ph (s : State) : (s.nextEntry).ph = 0#6 := rfl
@[simp] theorem State.nextEntry_bitn (s : State) : (s.nextEntry).bitn = bitnOf 0#6 := rfl
@[simp] theorem State.nextEntry_samp (s : State) : (s.nextEntry).samp = s.samp := rfl
@[simp] theorem State.nextEntry_samp0 (s : State) : (s.nextEntry).samp0 = s.samp0 := rfl
@[simp] theorem State.nextEntry_busy (s : State) : (s.nextEntry).busy = s.busy := rfl
@[simp] theorem State.nextEntry_done (s : State) : (s.nextEntry).done = s.done := rfl
@[simp] theorem State.nextEntry_acq (s : State) : (s.nextEntry).acq = s.acq := rfl
@[simp] theorem State.nextEntry_valid (s : State) : (s.nextEntry).valid = s.valid := rfl
@[simp] theorem State.nextEntry_err (s : State) : (s.nextEntry).err = s.err := rfl
@[simp] theorem State.nextEntry_errPend (s : State) : (s.nextEntry).errPend = s.errPend := rfl
@[simp] theorem State.nextEntry_now (s : State) : (s.nextEntry).now = s.now := rfl
@[simp] theorem State.nextEntry_tr (s : State) : (s.nextEntry).tr = s.tr := rfl
@[simp] theorem State.nextEntry_cfg (s : State) : (s.nextEntry).cfg = s.cfg := rfl
@[simp] theorem State.nextEntry_answers (s : State) : (s.nextEntry).answers = s.answers := rfl
@[simp] theorem State.nextEntry_asked (s : State) : (s.nextEntry).asked = s.asked := rfl
@[simp] theorem State.nextEntry_inputs (s : State) : (s.nextEntry).inputs = s.inputs := rfl
@[simp] theorem State.nextEntry_replies (s : State) : (s.nextEntry).replies = s.replies := rfl
@[simp] theorem State.nextEntry_slot (s : State) : (s.nextEntry).slot = s.slot := rfl

/-! ### `raiseAckTimeout` -/

@[simp] theorem State.raiseAckTimeout_scl (s : State) : (s.raiseAckTimeout).scl = s.scl := rfl
@[simp] theorem State.raiseAckTimeout_sda (s : State) : (s.raiseAckTimeout).sda = s.sda := rfl
@[simp] theorem State.raiseAckTimeout_txb (s : State) : (s.raiseAckTimeout).txb = s.txb := rfl
@[simp] theorem State.raiseAckTimeout_rx (s : State) : (s.raiseAckTimeout).rx = s.rx := rfl
@[simp] theorem State.raiseAckTimeout_rd (s : State) : (s.raiseAckTimeout).rd = s.rd := rfl
@[simp] theorem State.raiseAckTimeout_upc (s : State) : (s.raiseAckTimeout).upc = 22#5 := rfl
@[simp] theorem State.raiseAckTimeout_ph (s : State) : (s.raiseAckTimeout).ph = 0#6 := rfl
@[simp] theorem State.raiseAckTimeout_bitn (s : State) :
    (s.raiseAckTimeout).bitn = bitnOf 0#6 := rfl
@[simp] theorem State.raiseAckTimeout_samp (s : State) : (s.raiseAckTimeout).samp = s.samp := rfl
@[simp] theorem State.raiseAckTimeout_samp0 (s : State) : (s.raiseAckTimeout).samp0 = s.samp0 := rfl
@[simp] theorem State.raiseAckTimeout_busy (s : State) : (s.raiseAckTimeout).busy = s.busy := rfl
@[simp] theorem State.raiseAckTimeout_done (s : State) : (s.raiseAckTimeout).done = s.done := rfl
@[simp] theorem State.raiseAckTimeout_acq (s : State) : (s.raiseAckTimeout).acq = s.acq := rfl
@[simp] theorem State.raiseAckTimeout_valid (s : State) : (s.raiseAckTimeout).valid = s.valid := rfl
@[simp] theorem State.raiseAckTimeout_err (s : State) : (s.raiseAckTimeout).err = s.err := rfl
@[simp] theorem State.raiseAckTimeout_errPend (s : State) :
    (s.raiseAckTimeout).errPend = .ackTimeout := rfl
@[simp] theorem State.raiseAckTimeout_now (s : State) : (s.raiseAckTimeout).now = s.now := rfl
@[simp] theorem State.raiseAckTimeout_tr (s : State) : (s.raiseAckTimeout).tr = s.tr := rfl
@[simp] theorem State.raiseAckTimeout_cfg (s : State) : (s.raiseAckTimeout).cfg = s.cfg := rfl
@[simp] theorem State.raiseAckTimeout_answers (s : State) :
    (s.raiseAckTimeout).answers = s.answers := rfl
@[simp] theorem State.raiseAckTimeout_asked (s : State) : (s.raiseAckTimeout).asked = s.asked := rfl
@[simp] theorem State.raiseAckTimeout_inputs (s : State) :
    (s.raiseAckTimeout).inputs = s.inputs := rfl
@[simp] theorem State.raiseAckTimeout_replies (s : State) :
    (s.raiseAckTimeout).replies = s.replies := rfl
@[simp] theorem State.raiseAckTimeout_slot (s : State) : (s.raiseAckTimeout).slot = s.slot := rfl

/-! ### `endTransaction` -/

@[simp] theorem State.endTransaction_scl (s : State) (e : Err) :
    (s.endTransaction e).scl = s.scl := rfl
@[simp] theorem State.endTransaction_sda (s : State) (e : Err) :
    (s.endTransaction e).sda = s.sda := rfl
@[simp] theorem State.endTransaction_txb (s : State) (e : Err) :
    (s.endTransaction e).txb = s.txb := rfl
@[simp] theorem State.endTransaction_rx (s : State) (e : Err) :
    (s.endTransaction e).rx = if e = .none then s.rx else .zero := rfl
@[simp] theorem State.endTransaction_rd (s : State) (e : Err) :
    (s.endTransaction e).rd = s.rd := rfl
@[simp] theorem State.endTransaction_upc (s : State) (e : Err) :
    (s.endTransaction e).upc = 0#5 := rfl
@[simp] theorem State.endTransaction_ph (s : State) (e : Err) : (s.endTransaction e).ph = 0#6 := rfl
@[simp] theorem State.endTransaction_bitn (s : State) (e : Err) :
    (s.endTransaction e).bitn = bitnOf 0#6 := rfl
@[simp] theorem State.endTransaction_samp (s : State) (e : Err) :
    (s.endTransaction e).samp = s.samp := rfl
@[simp] theorem State.endTransaction_samp0 (s : State) (e : Err) :
    (s.endTransaction e).samp0 = s.samp0 := rfl
@[simp] theorem State.endTransaction_busy (s : State) (e : Err) :
    (s.endTransaction e).busy = false := rfl
@[simp] theorem State.endTransaction_done (s : State) (e : Err) :
    (s.endTransaction e).done = true := rfl
@[simp] theorem State.endTransaction_acq (s : State) (e : Err) :
    (s.endTransaction e).acq = s.acq := rfl
@[simp] theorem State.endTransaction_valid (s : State) (e : Err) :
    (s.endTransaction e).valid = s.valid := rfl
@[simp] theorem State.endTransaction_err (s : State) (e : Err) : (s.endTransaction e).err = e := rfl
@[simp] theorem State.endTransaction_errPend (s : State) (e : Err) :
    (s.endTransaction e).errPend = .none := rfl
@[simp] theorem State.endTransaction_now (s : State) (e : Err) :
    (s.endTransaction e).now = s.now := rfl
@[simp] theorem State.endTransaction_tr (s : State) (e : Err) :
    (s.endTransaction e).tr = s.tr := rfl
@[simp] theorem State.endTransaction_cfg (s : State) (e : Err) :
    (s.endTransaction e).cfg = s.cfg := rfl
@[simp] theorem State.endTransaction_answers (s : State) (e : Err) :
    (s.endTransaction e).answers = s.answers := rfl
@[simp] theorem State.endTransaction_asked (s : State) (e : Err) :
    (s.endTransaction e).asked = s.asked := rfl
@[simp] theorem State.endTransaction_inputs (s : State) (e : Err) :
    (s.endTransaction e).inputs = s.inputs := rfl
@[simp] theorem State.endTransaction_replies (s : State) (e : Err) :
    (s.endTransaction e).replies = s.replies := rfl
@[simp] theorem State.endTransaction_slot (s : State) (e : Err) :
    (s.endTransaction e).slot = s.slot := rfl

/-! ### `accept` -/

@[simp] theorem State.accept_scl (s : State) : (s.accept).scl = s.scl := rfl
@[simp] theorem State.accept_sda (s : State) : (s.accept).sda = s.sda := rfl
@[simp] theorem State.accept_txb (s : State) : (s.accept).txb = s.txb := rfl
@[simp] theorem State.accept_rx (s : State) : (s.accept).rx = s.rx := rfl
@[simp] theorem State.accept_rd (s : State) : (s.accept).rd = .zero := rfl
@[simp] theorem State.accept_upc (s : State) : (s.accept).upc = s.upc := rfl
@[simp] theorem State.accept_ph (s : State) : (s.accept).ph = s.ph := rfl
@[simp] theorem State.accept_bitn (s : State) : (s.accept).bitn = s.bitn := rfl
@[simp] theorem State.accept_samp (s : State) : (s.accept).samp = s.samp := rfl
@[simp] theorem State.accept_samp0 (s : State) : (s.accept).samp0 = s.samp0 := rfl
@[simp] theorem State.accept_busy (s : State) : (s.accept).busy = s.busy := rfl
@[simp] theorem State.accept_done (s : State) : (s.accept).done = false := rfl
@[simp] theorem State.accept_acq (s : State) : (s.accept).acq = s.acq := rfl
@[simp] theorem State.accept_valid (s : State) : (s.accept).valid = false := rfl
@[simp] theorem State.accept_err (s : State) : (s.accept).err = .none := rfl
@[simp] theorem State.accept_errPend (s : State) : (s.accept).errPend = s.errPend := rfl
@[simp] theorem State.accept_now (s : State) : (s.accept).now = s.now := rfl
@[simp] theorem State.accept_tr (s : State) : (s.accept).tr = s.tr := rfl
@[simp] theorem State.accept_cfg (s : State) : (s.accept).cfg = s.cfg := rfl
@[simp] theorem State.accept_answers (s : State) : (s.accept).answers = s.answers := rfl
@[simp] theorem State.accept_asked (s : State) : (s.accept).asked = s.asked := rfl
@[simp] theorem State.accept_inputs (s : State) : (s.accept).inputs = s.inputs := rfl
@[simp] theorem State.accept_replies (s : State) : (s.accept).replies = s.replies := rfl
@[simp] theorem State.accept_slot (s : State) : (s.accept).slot = s.slot := rfl

/-! ### `complete` -/

@[simp] theorem State.complete_scl (s : State) (e : Err) : (s.complete e).scl = s.scl := rfl
@[simp] theorem State.complete_sda (s : State) (e : Err) : (s.complete e).sda = s.sda := rfl
@[simp] theorem State.complete_txb (s : State) (e : Err) : (s.complete e).txb = s.txb := rfl
@[simp] theorem State.complete_rx (s : State) (e : Err) : (s.complete e).rx = s.rx := rfl
@[simp] theorem State.complete_rd (s : State) (e : Err) : (s.complete e).rd = s.rd := rfl
@[simp] theorem State.complete_upc (s : State) (e : Err) : (s.complete e).upc = s.upc := rfl
@[simp] theorem State.complete_ph (s : State) (e : Err) : (s.complete e).ph = s.ph := rfl
@[simp] theorem State.complete_bitn (s : State) (e : Err) : (s.complete e).bitn = s.bitn := rfl
@[simp] theorem State.complete_samp (s : State) (e : Err) : (s.complete e).samp = s.samp := rfl
@[simp] theorem State.complete_samp0 (s : State) (e : Err) : (s.complete e).samp0 = s.samp0 := rfl
@[simp] theorem State.complete_busy (s : State) (e : Err) : (s.complete e).busy = s.busy := rfl
@[simp] theorem State.complete_done (s : State) (e : Err) : (s.complete e).done = true := rfl
@[simp] theorem State.complete_acq (s : State) (e : Err) : (s.complete e).acq = s.acq := rfl
@[simp] theorem State.complete_valid (s : State) (e : Err) : (s.complete e).valid = s.valid := rfl
@[simp] theorem State.complete_err (s : State) (e : Err) : (s.complete e).err = e := rfl
@[simp] theorem State.complete_errPend (s : State) (e : Err) :
    (s.complete e).errPend = s.errPend := rfl
@[simp] theorem State.complete_now (s : State) (e : Err) : (s.complete e).now = s.now := rfl
@[simp] theorem State.complete_tr (s : State) (e : Err) : (s.complete e).tr = s.tr := rfl
@[simp] theorem State.complete_cfg (s : State) (e : Err) : (s.complete e).cfg = s.cfg := rfl
@[simp] theorem State.complete_answers (s : State) (e : Err) :
    (s.complete e).answers = s.answers := rfl
@[simp] theorem State.complete_asked (s : State) (e : Err) : (s.complete e).asked = s.asked := rfl
@[simp] theorem State.complete_inputs (s : State) (e : Err) :
    (s.complete e).inputs = s.inputs := rfl
@[simp] theorem State.complete_replies (s : State) (e : Err) :
    (s.complete e).replies = s.replies := rfl
@[simp] theorem State.complete_slot (s : State) (e : Err) : (s.complete e).slot = s.slot := rfl

/-! ### `releaseLines` -/

@[simp] theorem State.releaseLines_scl (s : State) : (s.releaseLines).scl = s.scl.turn .input := rfl
@[simp] theorem State.releaseLines_sda (s : State) : (s.releaseLines).sda = s.sda.turn .input := rfl
@[simp] theorem State.releaseLines_txb (s : State) : (s.releaseLines).txb = s.txb := rfl
@[simp] theorem State.releaseLines_rx (s : State) : (s.releaseLines).rx = s.rx := rfl
@[simp] theorem State.releaseLines_rd (s : State) : (s.releaseLines).rd = s.rd := rfl
@[simp] theorem State.releaseLines_upc (s : State) : (s.releaseLines).upc = s.upc := rfl
@[simp] theorem State.releaseLines_ph (s : State) : (s.releaseLines).ph = s.ph := rfl
@[simp] theorem State.releaseLines_bitn (s : State) : (s.releaseLines).bitn = s.bitn := rfl
@[simp] theorem State.releaseLines_samp (s : State) : (s.releaseLines).samp = s.samp := rfl
@[simp] theorem State.releaseLines_samp0 (s : State) : (s.releaseLines).samp0 = s.samp0 := rfl
@[simp] theorem State.releaseLines_busy (s : State) : (s.releaseLines).busy = s.busy := rfl
@[simp] theorem State.releaseLines_done (s : State) : (s.releaseLines).done = s.done := rfl
@[simp] theorem State.releaseLines_acq (s : State) : (s.releaseLines).acq = s.acq := rfl
@[simp] theorem State.releaseLines_valid (s : State) : (s.releaseLines).valid = s.valid := rfl
@[simp] theorem State.releaseLines_err (s : State) : (s.releaseLines).err = s.err := rfl
@[simp] theorem State.releaseLines_errPend (s : State) : (s.releaseLines).errPend = s.errPend := rfl
@[simp] theorem State.releaseLines_now (s : State) : (s.releaseLines).now = s.now := rfl
@[simp] theorem State.releaseLines_tr (s : State) : (s.releaseLines).tr = s.tr := rfl
@[simp] theorem State.releaseLines_cfg (s : State) : (s.releaseLines).cfg = s.cfg := rfl
@[simp] theorem State.releaseLines_answers (s : State) : (s.releaseLines).answers = s.answers := rfl
@[simp] theorem State.releaseLines_asked (s : State) : (s.releaseLines).asked = s.asked := rfl
@[simp] theorem State.releaseLines_inputs (s : State) : (s.releaseLines).inputs = s.inputs := rfl
@[simp] theorem State.releaseLines_replies (s : State) : (s.releaseLines).replies = s.replies := rfl
@[simp] theorem State.releaseLines_slot (s : State) : (s.releaseLines).slot = s.slot := rfl

/-! ### `beginTransaction` -/

@[simp] theorem State.beginTransaction_scl (s : State) : (s.beginTransaction).scl = s.scl := rfl
@[simp] theorem State.beginTransaction_sda (s : State) : (s.beginTransaction).sda = s.sda := rfl
@[simp] theorem State.beginTransaction_txb (s : State) : (s.beginTransaction).txb = s.txb := rfl
@[simp] theorem State.beginTransaction_rx (s : State) : (s.beginTransaction).rx = .zero := rfl
@[simp] theorem State.beginTransaction_rd (s : State) : (s.beginTransaction).rd = s.rd := rfl
@[simp] theorem State.beginTransaction_upc (s : State) : (s.beginTransaction).upc = 0#5 := rfl
@[simp] theorem State.beginTransaction_ph (s : State) : (s.beginTransaction).ph = 0#6 := rfl
@[simp] theorem State.beginTransaction_bitn (s : State) :
    (s.beginTransaction).bitn = bitnOf 0#6 := rfl
@[simp] theorem State.beginTransaction_samp (s : State) : (s.beginTransaction).samp = s.samp := rfl
@[simp] theorem State.beginTransaction_samp0 (s : State) :
    (s.beginTransaction).samp0 = s.samp0 := rfl
@[simp] theorem State.beginTransaction_busy (s : State) : (s.beginTransaction).busy = true := rfl
@[simp] theorem State.beginTransaction_done (s : State) : (s.beginTransaction).done = s.done := rfl
@[simp] theorem State.beginTransaction_acq (s : State) : (s.beginTransaction).acq = s.acq := rfl
@[simp] theorem State.beginTransaction_valid (s : State) :
    (s.beginTransaction).valid = s.valid := rfl
@[simp] theorem State.beginTransaction_err (s : State) : (s.beginTransaction).err = s.err := rfl
@[simp] theorem State.beginTransaction_errPend (s : State) :
    (s.beginTransaction).errPend = .none := rfl
@[simp] theorem State.beginTransaction_now (s : State) : (s.beginTransaction).now = 0 := rfl
@[simp] theorem State.beginTransaction_tr (s : State) : (s.beginTransaction).tr = [] := rfl
@[simp] theorem State.beginTransaction_cfg (s : State) : (s.beginTransaction).cfg = s.cfg := rfl
@[simp] theorem State.beginTransaction_answers (s : State) :
    (s.beginTransaction).answers = s.answers := rfl
@[simp] theorem State.beginTransaction_asked (s : State) :
    (s.beginTransaction).asked = s.asked := rfl
@[simp] theorem State.beginTransaction_inputs (s : State) :
    (s.beginTransaction).inputs = s.inputs := rfl
@[simp] theorem State.beginTransaction_replies (s : State) :
    (s.beginTransaction).replies = s.replies := rfl
@[simp] theorem State.beginTransaction_slot (s : State) : (s.beginTransaction).slot = s.slot := rfl

/-! ### `rst` -/

@[simp] theorem State.rst_scl (s : State) : (s.rst).scl = State.reset.scl := rfl
@[simp] theorem State.rst_sda (s : State) : (s.rst).sda = State.reset.sda := rfl
@[simp] theorem State.rst_txb (s : State) : (s.rst).txb = State.reset.txb := rfl
@[simp] theorem State.rst_rx (s : State) : (s.rst).rx = State.reset.rx := rfl
@[simp] theorem State.rst_rd (s : State) : (s.rst).rd = State.reset.rd := rfl
@[simp] theorem State.rst_upc (s : State) : (s.rst).upc = State.reset.upc := rfl
@[simp] theorem State.rst_ph (s : State) : (s.rst).ph = State.reset.ph := rfl
@[simp] theorem State.rst_bitn (s : State) : (s.rst).bitn = State.reset.bitn := rfl
@[simp] theorem State.rst_samp (s : State) : (s.rst).samp = State.reset.samp := rfl
@[simp] theorem State.rst_samp0 (s : State) : (s.rst).samp0 = State.reset.samp0 := rfl
@[simp] theorem State.rst_busy (s : State) : (s.rst).busy = State.reset.busy := rfl
@[simp] theorem State.rst_done (s : State) : (s.rst).done = State.reset.done := rfl
@[simp] theorem State.rst_acq (s : State) : (s.rst).acq = State.reset.acq := rfl
@[simp] theorem State.rst_valid (s : State) : (s.rst).valid = State.reset.valid := rfl
@[simp] theorem State.rst_err (s : State) : (s.rst).err = State.reset.err := rfl
@[simp] theorem State.rst_errPend (s : State) : (s.rst).errPend = State.reset.errPend := rfl
@[simp] theorem State.rst_now (s : State) : (s.rst).now = s.now := rfl
@[simp] theorem State.rst_tr (s : State) : (s.rst).tr = s.tr := rfl
@[simp] theorem State.rst_cfg (s : State) : (s.rst).cfg = s.cfg := rfl
@[simp] theorem State.rst_answers (s : State) : (s.rst).answers = s.answers := rfl
@[simp] theorem State.rst_asked (s : State) : (s.rst).asked = s.asked := rfl
@[simp] theorem State.rst_inputs (s : State) : (s.rst).inputs = s.inputs := rfl
@[simp] theorem State.rst_replies (s : State) : (s.rst).replies = s.replies := rfl
@[simp] theorem State.rst_slot (s : State) : (s.rst).slot = s.slot := rfl

/-! ### Reading what was written -/

@[simp] theorem State.cell_scl (s : State) : s.cell .scl = s.scl := rfl

@[simp] theorem State.cell_sda (s : State) : s.cell .sda = s.sda := rfl

theorem State.cell_setCell (s : State) (l l' : Line) (c : Cell) :
    (s.setCell l c).cell l' = if l' = l then c else s.cell l' := by
  cases l <;> cases l' <;> rfl

@[simp] theorem FiveBytes.get_set (r : FiveBytes) (k j : Fin 5) (v : Byte) :
    (r.set k v).get j = if j = k then v else r.get j := by
  fin_cases k <;> fin_cases j <;> rfl

@[simp] theorem Cell.turn_dir (c : Cell) (d : Dir) : (c.turn d).dir = d := rfl

@[simp] theorem Cell.turn_lat (c : Cell) (d : Dir) : (c.turn d).lat = c.lat := rfl

@[simp] theorem Cell.drive_dir (c : Cell) (v : Level) : (c.drive v).dir = c.dir := by
  cases c with | mk d l => cases d <;> rfl

theorem Cell.drive_of_output {c : Cell} (h : c.dir = .output) (v : Level) :
    c.drive v = { c with lat := v } := by
  simp [Cell.drive, h]

theorem Cell.drive_of_input {c : Cell} (h : c.dir = .input) (v : Level) : c.drive v = c := by
  simp [Cell.drive, h]

@[simp] theorem Cell.drive_drive (c : Cell) (v w : Level) : (c.drive v).drive w = c.drive w := by
  cases c with | mk d l => cases d <;> rfl

end Sys2Proof.Machine
end

