-- ==== Sys2Proof/Laws/Ops.lean ====
section
/-!
SUPPORT. One lemma per shared operation, saying once everything it can do: sequencing, the primitives
and their lists, routines, commands, host accesses, and the step.
-/

namespace Sys2Proof.Machine

/-! ### Sequencing -/

@[simp] theorem andThen_next (s : State) (f : State → Result) : andThen (.next s) f = f s := rfl

@[simp] theorem andThen_refused (e : Refusal) (f : State → Result) :
    andThen (.refused e) f = .refused e := rfl

theorem andThen_eq_next {r : Result} {f : State → Result} {t : State} (h : andThen r f = .next t) :
    ∃ s, r = .next s ∧ f s = .next t := by
  cases r with
  | next s => exact ⟨s, rfl, h⟩
  | fault e => nomatch e
  | refused e => cases h

theorem andThen_assoc (r : Result) (f g : State → Result) :
    andThen (andThen r f) g = andThen r fun s => andThen (f s) g := by
  cases r <;> rfl

/-! ### Samples -/

@[simp] theorem State.sampled_level (s : State) (j : Nat) : s.sampled.level j = s.level (j + 1) := by
  simp [State.level, Nat.add_comm, Nat.add_left_comm]

theorem State.level_congr {s t : State} (ha : t.answers = s.answers) (hn : t.asked = s.asked) (j : Nat) :
    t.level j = s.level j := by
  simp [State.level, ha, hn]

/-! ### The primitives -/

theorem State.getLvl_of_input {s : State} {l : Line} (h : (s.cell l).dir = .input) :
    s.getLvl l = .next (s.sampled.performed (.smp l (s.level 0))) := by
  simp [State.getLvl, h]

theorem State.getLvl_of_output {s : State} {l : Line} (h : (s.cell l).dir = .output) :
    s.getLvl l = .refused .getlvlOfDrivenLine := by
  simp [State.getLvl, h]

/-- All that `GETLVL` can do if it goes on. -/
theorem State.getLvl_next {s t : State} {l : Line} (h : s.getLvl l = .next t) :
    (s.cell l).dir = .input ∧ t = s.sampled.performed (.smp l (s.level 0)) := by
  unfold State.getLvl at h
  split at h
  · next hd => exact ⟨hd, by cases h; rfl⟩
  · cases h

/-- What every primitive of an expansion leaves as it is, and what it does to the lines, `ph` and
`bitn`, if it goes on. -/
structure Performed (m : Micro) (s t : State) : Prop where
  cells : (t.scl, t.sda) = m.onCells s.txb (s.scl, s.sda)
  ph : t.ph = s.ph + 1#6
  bitn : t.bitn = bitnOf (s.ph + 1#6)
  txb : t.txb = s.txb
  rd : t.rd = s.rd
  upc : t.upc = s.upc
  busy : t.busy = s.busy
  done : t.done = s.done
  acq : t.acq = s.acq
  valid : t.valid = s.valid
  err : t.err = s.err
  errPend : t.errPend = s.errPend
  cfg : t.cfg = s.cfg
  inputs : t.inputs = s.inputs
  replies : t.replies = s.replies
  slot : t.slot = s.slot

theorem perform_next {m : Micro} {s t : State} (h : perform m s = .next t) : Performed m s t := by
  cases m with
  | setDir l d => cases h; cases l <;> constructor <;> simp [Micro.onCells]
  | setLvl l v => cases h; cases l <;> constructor <;> simp [Micro.onCells]
  | sendBit n => cases h; constructor <;> simp [Micro.onCells]
  | getLvl l =>
    obtain ⟨-, rfl⟩ := State.getLvl_next h
    constructor <;> simp [Micro.onCells]
  | keepFirst l =>
    obtain ⟨u, hu, h⟩ := andThen_eq_next h
    obtain ⟨-, rfl⟩ := State.getLvl_next hu
    cases h; constructor <;> simp [Micro.onCells]
  | takeBit k n =>
    obtain ⟨u, hu, h⟩ := andThen_eq_next h
    obtain ⟨-, rfl⟩ := State.getLvl_next hu
    cases h; constructor <;> simp [Micro.onCells]
  | delay d => cases h; constructor <;> simp [Micro.onCells]

/-- A primitive goes on unless it samples a driven line. -/
def Micro.ready (m : Micro) (c : Cell × Cell) : Prop :=
  match m with
  | .getLvl .scl => c.1.dir = .input
  | .getLvl .sda => c.2.dir = .input
  | .keepFirst .scl => c.1.dir = .input
  | .keepFirst .sda => c.2.dir = .input
  | .takeBit _ _ => c.2.dir = .input
  | _ => True

theorem perform_ready {m : Micro} {s : State} (h : m.ready (s.scl, s.sda)) :
    ∃ t, perform m s = .next t := by
  cases m with
  | setDir l d => exact ⟨_, rfl⟩
  | setLvl l v => exact ⟨_, rfl⟩
  | sendBit n => exact ⟨_, rfl⟩
  | getLvl l =>
    have hd : (s.cell l).dir = .input := by cases l <;> exact h
    exact ⟨_, State.getLvl_of_input hd⟩
  | keepFirst l =>
    have hd : (s.cell l).dir = .input := by cases l <;> exact h
    exact ⟨_, by rw [perform, State.getLvl_of_input hd]; rfl⟩
  | takeBit k n =>
    have hd : (s.cell .sda).dir = .input := h
    exact ⟨_, by rw [perform, State.getLvl_of_input hd]; rfl⟩
  | delay d => exact ⟨_, rfl⟩

/-! ### Lists of primitives -/

@[simp] theorem runAll_nil (s : State) : runAll [] s = .next s := rfl

@[simp] theorem runAll_cons (m : Micro) (ms : List Micro) (s : State) :
    runAll (m :: ms) s = andThen (perform m s) (runAll ms) := rfl

theorem runAll_append (a b : List Micro) (s : State) :
    runAll (a ++ b) s = andThen (runAll a s) (runAll b) := by
  induction a generalizing s with
  | nil => rfl
  | cons m ms ih =>
    have h : runAll (ms ++ b) = fun u => andThen (runAll ms u) (runAll b) := funext ih
    simp only [List.cons_append, runAll_cons, andThen_assoc, h]

/-- What a list of primitives leaves as it is, and what it does to the lines. -/
structure Ran (ms : List Micro) (s t : State) : Prop where
  cells : (t.scl, t.sda) = ms.foldl (Micro.onCells s.txb) (s.scl, s.sda)
  txb : t.txb = s.txb
  rd : t.rd = s.rd
  upc : t.upc = s.upc
  busy : t.busy = s.busy
  done : t.done = s.done
  acq : t.acq = s.acq
  valid : t.valid = s.valid
  err : t.err = s.err
  errPend : t.errPend = s.errPend
  cfg : t.cfg = s.cfg
  inputs : t.inputs = s.inputs
  replies : t.replies = s.replies
  slot : t.slot = s.slot

theorem runAll_next {ms : List Micro} {s t : State} (h : runAll ms s = .next t) : Ran ms s t := by
  induction ms generalizing s with
  | nil => cases h; constructor <;> rfl
  | cons m ms ih =>
    obtain ⟨u, hu, h⟩ := andThen_eq_next h
    have p := perform_next hu
    have r := ih h
    constructor
    · rw [r.cells, p.cells, p.txb]; rfl
    · rw [r.txb, p.txb]
    · rw [r.rd, p.rd]
    · rw [r.upc, p.upc]
    · rw [r.busy, p.busy]
    · rw [r.done, p.done]
    · rw [r.acq, p.acq]
    · rw [r.valid, p.valid]
    · rw [r.err, p.err]
    · rw [r.errPend, p.errPend]
    · rw [r.cfg, p.cfg]
    · rw [r.inputs, p.inputs]
    · rw [r.replies, p.replies]
    · rw [r.slot, p.slot]

/-! ### Routines -/

/-- All that a whole entry can do: its load, its primitives, its control transfer. -/
theorem Routine.run_next {r : Routine} {s t : State} (h : r.run s = .next t) :
    ∃ u, runAll r.body (r.begin s) = .next u ∧ t = r.finish u := by
  obtain ⟨u, hu, h⟩ := andThen_eq_next h
  exact ⟨u, hu, by cases h; rfl⟩

/-- All that one primitive of an entry can do. -/
theorem Routine.runPrimitive_next {r : Routine} {s t : State} (h : r.runPrimitive s = .next t) :
    (∃ m u, r.body[s.ph.toNat]? = some m ∧
      perform m (if s.ph = 0#6 then r.begin s else s) = .next u ∧
      t = if s.ph.toNat + 1 = r.body.length then r.finish u else u) ∨
    (s.ph = 0#6 ∧ r.body = [] ∧ t = r.finish (r.begin s)) := by
  unfold Routine.runPrimitive at h
  cases hm : r.body[s.ph.toNat]? with
  | some m =>
    simp only [hm] at h
    obtain ⟨u, hu, h⟩ := andThen_eq_next h
    exact .inl ⟨m, u, rfl, hu, by cases h; rfl⟩
  | none =>
    simp only [hm] at h
    split at h
    · next h0 =>
      have hb : r.body = [] := by
        rw [List.getElem?_eq_none_iff] at hm
        simpa [h0] using hm
      exact .inr ⟨h0, hb, by cases h; simp⟩
    · cases h

/-! ### Commands and the end of a transaction -/

/-- All that a command byte can do: dropped while busy, accepted and executed otherwise. -/
theorem command_eq (f : State → State) (s : State) :
    command f s = .next (if s.busy then s else f s.accept) := rfl

theorem command_of_busy {s : State} (h : s.busy = true) (f : State → State) :
    command f s = .next s := by
  simp [command, h]

theorem command_of_idle {s : State} (h : s.busy = false) (f : State → State) :
    command f s = .next (f s.accept) := by
  simp [command, h]

/-- Every byte written to `CMD` is dropped while busy. -/
theorem hostCommand_of_busy {s : State} (h : s.busy = true) (v : Byte) :
    hostCommand v s = .next s := by
  unfold hostCommand
  split
  · next i hi =>
    unfold decodeHost at hi
    split_ifs at hi <;> cases hi <;>
      simp only [exec, execAcquire, execRelease, execRead, execWrite, command_of_busy h]
  · exact command_of_busy h _

/-- All that a byte written to `CMD` can do, idle. -/
theorem hostCommand_of_idle {s : State} (h : s.busy = false) (v : Byte) :
    ∃ t, hostCommand v s = .next t ∧
      (t = State.complete { s.accept with scl := .released, sda := .released, acq := true } .none ∨
       t = State.complete { s.accept.releaseLines with acq := false } .none ∨
       (s.acq = true ∧ t = s.accept.beginTransaction) ∨
       (s.acq = false ∧ t = s.accept.complete .notAcquired) ∨
       t = s.accept.complete .unsupportedOperation ∨
       t = s.accept.complete .illegalCommand) := by
  unfold hostCommand
  split
  · next i hi =>
    unfold decodeHost at hi
    split_ifs at hi <;> cases hi <;>
      simp only [exec, execAcquire, execRelease, execRead, execWrite, command_of_idle h] <;>
      refine ⟨_, rfl, ?_⟩
    · exact .inl rfl
    · exact .inr (.inl rfl)
    · cases ha : s.acq
      · exact .inr (.inr (.inr (.inl ⟨rfl, by simp [ha]⟩)))
      · exact .inr (.inr (.inl ⟨rfl, by simp [ha]⟩))
    · exact .inr (.inr (.inr (.inr (.inl rfl))))
  · exact ⟨_, command_of_idle h _, .inr (.inr (.inr (.inr (.inr rfl))))⟩

/-- All that a host access can do if it goes on. -/
theorem hostAccess_next {a : Access} {s t : State} (h : hostAccess a s = .next t) :
    (∃ n, n ≤ 7 ∧ a = .read n 1 ∧ t = { s with replies := s.replies ++ [s.window n] }) ∨
    (∃ n v, 0 < n ∧ n ≤ 7 ∧ a = .write n 1 v ∧ t = s) ∨
    (∃ v, a = .write 0 1 v ∧ hostCommand v s = .next t) := by
  cases a with
  | read n w =>
    simp only [hostAccess] at h
    split at h
    · next hc =>
      obtain ⟨hn, rfl⟩ := hc
      exact .inl ⟨n, hn, rfl, by cases h; rfl⟩
    · cases h
  | write n w v =>
    simp only [hostAccess] at h
    split at h
    · next hc =>
      obtain ⟨hn, rfl⟩ := hc
      split at h
      · next h0 => subst h0; exact .inr (.inr ⟨v, rfl, h⟩)
      · next h0 => exact .inr (.inl ⟨n, v, Nat.pos_of_ne_zero h0, hn, rfl, by cases h; rfl⟩)
    · cases h

/-! ### The step -/

/-- All that a step can do if it goes on: one case per item of the schedule. -/
theorem step_next {s t : State} (h : step s = .next t) :
    s.cfg.legal = true ∧
    ((∃ w, s.slot = some w ∧ issue w { s with slot := none } = .next t) ∨
     (s.slot = none ∧
      ((s.inputs = [] ∧ engine s = .next t) ∨
       (∃ rest, s.inputs = .reset :: rest ∧ t = State.rst { s with inputs := rest }) ∨
       (∃ rest, s.inputs = .prim :: rest ∧ enginePrimitive { s with inputs := rest } = .next t) ∨
       (∃ a rest, s.inputs = .hostNow a :: rest ∧ hostAccess a { s with inputs := rest } = .next t) ∨
       (∃ a rest, s.inputs = .hostWhenIdle a :: rest ∧ s.busy = true ∧ engine s = .next t) ∨
       (∃ a rest, s.inputs = .hostWhenIdle a :: rest ∧ s.busy = false ∧
         hostAccess a { s with inputs := rest } = .next t)))) := by
  unfold step at h
  split at h
  · next hl =>
    refine ⟨hl, ?_⟩
    unfold oneStep at h
    split at h
    · next w hw => exact .inl ⟨w, hw, h⟩
    · next hw =>
      refine .inr ⟨hw, ?_⟩
      unfold boundary at h
      split at h
      · next hi => exact .inl ⟨hi, h⟩
      · next rest hi => exact .inr (.inl ⟨rest, hi, by cases h; rfl⟩)
      · next rest hi => exact .inr (.inr (.inl ⟨rest, hi, h⟩))
      · next a rest hi => exact .inr (.inr (.inr (.inl ⟨a, rest, hi, h⟩)))
      · next a rest hi =>
        split at h
        · next hb => exact .inr (.inr (.inr (.inr (.inl ⟨a, rest, hi, hb, h⟩))))
        · next hb => exact .inr (.inr (.inr (.inr (.inr ⟨a, rest, hi, by simpa using hb, h⟩))))
  · cases h

end Sys2Proof.Machine
end

