-- ==== Sys2Proof/Laws/PerInstr.lean ====
section
/-!
SUPPORT. Statements for all operations, one lemma per constructor. `RowMatch`: the encoding of an
operation lies in its row of `spec/opcode_table.json` (its width, and its fixed bits under the mask).
-/

namespace Sys2Proof.Laws.RowMatch

/-- A row of the opcode table: the fixed bits of a command byte, or of a microword. -/
inductive Row where
  | host (mask val : Byte)
  | micro (mask val : MicroWord)
  deriving DecidableEq, Repr

/-- The row of each operation, as the table has it. -/
def row : Instr → Row
  | .acquire => .host 0xFF#8 0x01#8
  | .release => .host 0xFF#8 0x02#8
  | .read => .host 0xFF#8 0x03#8
  | .write => .host 0xFF#8 0x04#8
  | .setdir _ _ => .micro 0xFFFC#16 0x1000#16
  | .setlvl _ _ => .micro 0xFFFC#16 0x1100#16
  | .getlvl _ => .micro 0xFFFD#16 0x1200#16
  | .delay _ => .micro 0xFFFC#16 0x1300#16
  | .wbit _ => .micro 0xFFF8#16 0x2000#16
  | .wbyte _ => .micro 0xFFFC#16 0x2100#16
  | .rbit _ _ => .micro 0xFF88#16 0x2200#16
  | .rbyte _ => .micro 0xFFF8#16 0x2300#16
  | .idlechk => .micro 0xFFFF#16 0x3000#16
  | .start => .micro 0xFFFF#16 0x3100#16
  | .ackw => .micro 0xFFFF#16 0x3200#16
  | .restart => .micro 0xFFFF#16 0x3300#16
  | .sack => .micro 0xFFFF#16 0x3400#16
  | .snak => .micro 0xFFFF#16 0x3500#16
  | .stop => .micro 0xFFFF#16 0x3600#16
  | .relln => .micro 0xFFFF#16 0x3700#16
  | .validate => .micro 0xFFFF#16 0x3800#16
  | .fail => .micro 0xFFFF#16 0x3900#16

/-- The code has the row's width and its fixed bits. -/
def Row.holds : Row → Code → Prop
  | .host mask val, .host b => b &&& mask = val
  | .micro mask val, .micro w => w &&& mask = val
  | .host _ _, .micro _ => False
  | .micro _ _, .host _ => False

/-- The encoding of `i` lies in the row of `i`. -/
def Statement (i : Instr) : Prop := (row i).holds (encode i)

theorem acquire : Statement .acquire := rfl

theorem release : Statement .release := rfl

theorem read : Statement .read := rfl

theorem write : Statement .write := rfl

theorem setdir (line : Line) (dir : Dir) : Statement (.setdir line dir) := by
  cases line <;> cases dir <;> rfl

theorem setlvl (line : Line) (level : Level) : Statement (.setlvl line level) := by
  cases line <;> cases level <;> rfl

theorem getlvl (line : Line) : Statement (.getlvl line) := by
  cases line <;> rfl

theorem delay (c : BitVec 2) : Statement (.delay c) := by
  unfold Statement row encode Row.holds
  revert c
  decide

theorem wbit (n : BitVec 3) : Statement (.wbit n) := by
  unfold Statement row encode Row.holds
  revert n
  decide

theorem wbyte (sel : BitVec 2) : Statement (.wbyte sel) := by
  unfold Statement row encode Row.holds
  revert sel
  decide

theorem rbit (k n : BitVec 3) : Statement (.rbit k n) := by
  unfold Statement row encode Row.holds
  revert k n
  decide

theorem rbyte (k : BitVec 3) : Statement (.rbyte k) := by
  unfold Statement row encode Row.holds
  revert k
  decide

theorem idlechk : Statement .idlechk := rfl

theorem start : Statement .start := rfl

theorem ackw : Statement .ackw := rfl

theorem restart : Statement .restart := rfl

theorem sack : Statement .sack := rfl

theorem snak : Statement .snak := rfl

theorem stop : Statement .stop := rfl

theorem relln : Statement .relln := rfl

theorem validate : Statement .validate := rfl

theorem fail : Statement .fail := rfl

end Sys2Proof.Laws.RowMatch
end

