-- ==== Sys2Proof/Laws/Runs.lean ====
section
/-!
SUPPORT. The closed form of a list of primitives: the state it leaves, field by field, as functions of
the list and of the environment's answers; and when it goes on.
-/

namespace Sys2Proof.Machine

/-! ### Stamps and times -/

/-- The time a list of actions takes. -/
def elapsed : List Act → Nat
  | [] => 0
  | .dly us :: rest => us + elapsed rest
  | .dir _ _ :: rest => elapsed rest
  | .lvl _ _ :: rest => elapsed rest
  | .smp _ _ :: rest => elapsed rest

theorem elapsed_append (a b : List Act) : elapsed (a ++ b) = elapsed a + elapsed b := by
  induction a with
  | nil => simp [elapsed]
  | cons x xs ih => cases x <;> simp [elapsed, ih, Nat.add_assoc]

theorem stamped_cons (t : Nat) (x : Act) (xs : List Act) :
    stamped t (x :: xs) = ⟨t, x⟩ :: stamped (t + elapsed [x]) xs := by
  cases x <;> simp [stamped, elapsed]

theorem stamped_append (t : Nat) (a b : List Act) :
    stamped t (a ++ b) = stamped t a ++ stamped (t + elapsed a) b := by
  induction a generalizing t with
  | nil => simp [stamped, elapsed]
  | cons x xs ih => cases x <;> simp [stamped, elapsed, ih, Nat.add_assoc]

@[simp] theorem stamped_length (t : Nat) (a : List Act) : (stamped t a).length = a.length := by
  induction a generalizing t with
  | nil => rfl
  | cons x xs ih => cases x <;> simp [stamped, ih]

/-! ### What a list of primitives does -/

/-- How many samples a primitive takes. -/
def Micro.takes : Micro → Nat
  | .getLvl _ => 1
  | .keepFirst _ => 1
  | .takeBit _ _ => 1
  | .setDir _ _ => 0
  | .setLvl _ _ => 0
  | .sendBit _ => 0
  | .delay _ => 0

/-- What a primitive records, its sample (if it takes one) being `v`. -/
def Micro.act (p : Params) (txb : Byte) (v : Level) : Micro → Act
  | .setDir l d => .dir l d
  | .setLvl l w => .lvl l w
  | .sendBit n => .lvl .sda (extractBit txb n)
  | .getLvl l => .smp l v
  | .keepFirst l => .smp l v
  | .takeBit _ _ => .smp .sda v
  | .delay d => .dly (p.us d)

/-- What a list records, its samples being `a 0`, `a 1`, … -/
def actsOf (p : Params) (txb : Byte) : (Nat → Level) → List Micro → List Act
  | _, [] => []
  | a, m :: ms => m.act p txb (a 0) :: actsOf p txb (fun j => a (j + m.takes)) ms

/-- How many samples a list takes. -/
def takesOf : List Micro → Nat
  | [] => 0
  | m :: ms => m.takes + takesOf ms

/-- The receive buffer after a list. -/
def rxAfter : (Nat → Level) → List Micro → FiveBytes → FiveBytes
  | _, [], r => r
  | a, m :: ms, r =>
    rxAfter (fun j => a (j + m.takes)) ms
      (match m with
        | .takeBit k n => r.set k (insertBit (r.get k) n (a 0))
        | _ => r)

/-- The last sample after a list. -/
def sampAfter : (Nat → Level) → List Micro → Level → Level
  | _, [], v => v
  | a, m :: ms, v => sampAfter (fun j => a (j + m.takes)) ms (if m.takes = 1 then a 0 else v)

/-- The idle check's kept sample after a list. -/
def samp0After : (Nat → Level) → List Micro → Level → Level
  | _, [], v => v
  | a, m :: ms, v =>
    samp0After (fun j => a (j + m.takes)) ms
      (match m with
        | .keepFirst _ => a 0
        | _ => v)

/-- The state a list of primitives leaves. -/
def afterAll (ms : List Micro) (s : State) : State :=
  { s with
    scl := (ms.foldl (Micro.onCells s.txb) (s.scl, s.sda)).1
    sda := (ms.foldl (Micro.onCells s.txb) (s.scl, s.sda)).2
    rx := rxAfter s.level ms s.rx
    samp := sampAfter s.level ms s.samp
    samp0 := samp0After s.level ms s.samp0
    ph := s.ph + BitVec.ofNat 6 ms.length
    bitn := if ms = [] then s.bitn else bitnOf (s.ph + BitVec.ofNat 6 ms.length)
    now := s.now + elapsed (actsOf s.cfg s.txb s.level ms)
    tr := s.tr ++ stamped s.now (actsOf s.cfg s.txb s.level ms)
    answers := s.answers.drop (takesOf ms)
    asked := s.asked + takesOf ms }

/-- One primitive, in the closed form. -/
theorem perform_eq {m : Micro} {s t : State} (h : perform m s = .next t) : t = afterAll [m] s := by
  cases m with
  | setDir l d =>
    cases h; cases l <;>
      simp [State.ext_iff, afterAll, Micro.onCells, actsOf, Micro.act, takesOf, Micro.takes, elapsed,
        stamped, rxAfter, sampAfter, samp0After]
  | setLvl l v =>
    cases h; cases l <;>
      simp [State.ext_iff, afterAll, Micro.onCells, actsOf, Micro.act, takesOf, Micro.takes, elapsed,
        stamped, rxAfter, sampAfter, samp0After]
  | sendBit n =>
    cases h
    simp [State.ext_iff, afterAll, Micro.onCells, actsOf, Micro.act, takesOf, Micro.takes, elapsed,
      stamped, rxAfter, sampAfter, samp0After]
  | getLvl l =>
    obtain ⟨-, rfl⟩ := State.getLvl_next h
    simp [State.ext_iff, afterAll, Micro.onCells, actsOf, Micro.act, takesOf, Micro.takes, elapsed,
      stamped, rxAfter, sampAfter, samp0After]
  | keepFirst l =>
    obtain ⟨u, hu, h⟩ := andThen_eq_next h
    obtain ⟨-, rfl⟩ := State.getLvl_next hu
    cases h
    simp [State.ext_iff, afterAll, Micro.onCells, actsOf, Micro.act, takesOf, Micro.takes, elapsed,
      stamped, rxAfter, sampAfter, samp0After]
  | takeBit k n =>
    obtain ⟨u, hu, h⟩ := andThen_eq_next h
    obtain ⟨-, rfl⟩ := State.getLvl_next hu
    cases h
    simp [State.ext_iff, afterAll, Micro.onCells, actsOf, Micro.act, takesOf, Micro.takes, elapsed,
      stamped, rxAfter, sampAfter, samp0After]
  | delay d =>
    cases h
    simp [State.ext_iff, afterAll, Micro.onCells, actsOf, Micro.act, takesOf, Micro.takes, elapsed,
      stamped, rxAfter, sampAfter, samp0After]

theorem afterAll_nil (s : State) : afterAll [] s = s := by
  simp [afterAll, actsOf, takesOf, elapsed, stamped, rxAfter, sampAfter, samp0After]

theorem afterAll_level (ms : List Micro) (s : State) (j : Nat) :
    (afterAll ms s).level j = s.level (j + takesOf ms) := by
  simp [afterAll, State.level, Nat.add_comm, Nat.add_left_comm]

/-- The closed form of a list is that of its head followed by that of its tail. -/
theorem afterAll_cons (m : Micro) (ms : List Micro) (s : State) :
    afterAll ms (afterAll [m] s) = afterAll (m :: ms) s := by
  have hl : (afterAll [m] s).level = fun j => s.level (j + m.takes) := by
    funext j; rw [afterAll_level]; simp [takesOf]
  have hp : BitVec.ofNat 6 (ms.length + 1) = 1#6 + BitVec.ofNat 6 ms.length := by
    rw [Nat.add_comm, BitVec.ofNat_add]
  have ht : (afterAll [m] s).txb = s.txb := rfl
  apply State.ext
  case bitn =>
    cases ms with
    | nil => simp [afterAll]
    | cons a b =>
      rw [List.length_cons] at hp
      simp [afterAll, hp, BitVec.add_assoc]
  case tr =>
    show (afterAll [m] s).tr ++ stamped (afterAll [m] s).now
      (actsOf (afterAll [m] s).cfg (afterAll [m] s).txb (afterAll [m] s).level ms) = _
    rw [hl]
    simp only [afterAll, actsOf, stamped_cons, List.append_assoc, List.cons_append]
    simp [stamped]
  case now =>
    show (afterAll [m] s).now + elapsed
      (actsOf (afterAll [m] s).cfg (afterAll [m] s).txb (afterAll [m] s).level ms) = _
    rw [hl]
    show s.now + elapsed [m.act s.cfg s.txb (s.level 0)] + _ = s.now + elapsed (_ :: _)
    rw [Nat.add_assoc, ← elapsed_append]; rfl
  case rx => show rxAfter (afterAll [m] s).level ms _ = _; rw [hl]; rfl
  case samp => show sampAfter (afterAll [m] s).level ms _ = _; rw [hl]; rfl
  case samp0 => show samp0After (afterAll [m] s).level ms _ = _; rw [hl]; rfl
  all_goals simp [afterAll, takesOf, hp, BitVec.add_assoc, Nat.add_assoc]

/-- All that a list of primitives can do, if it goes on. -/
theorem runAll_eq {ms : List Micro} {s t : State} (h : runAll ms s = .next t) : t = afterAll ms s := by
  induction ms generalizing s with
  | nil => cases h; exact (afterAll_nil _).symm
  | cons m ms ih =>
    obtain ⟨u, hu, h⟩ := andThen_eq_next h
    rw [ih h, perform_eq hu, afterAll_cons m ms]

/-- A list goes on where every sample it takes finds its line released. -/
def readyAll (txb : Byte) : List Micro → Cell × Cell → Prop
  | [], _ => True
  | m :: ms, c => m.ready c ∧ readyAll txb ms (m.onCells txb c)

theorem runAll_of_ready {ms : List Micro} {s : State} (h : readyAll s.txb ms (s.scl, s.sda)) :
    runAll ms s = .next (afterAll ms s) := by
  induction ms generalizing s with
  | nil => rw [afterAll_nil]; rfl
  | cons m ms ih =>
    obtain ⟨t, ht⟩ := perform_ready h.1
    have p := perform_next ht
    have h2 : readyAll t.txb ms (t.scl, t.sda) := by rw [p.txb, p.cells]; exact h.2
    rw [runAll_cons, ht, andThen_next, ih h2, perform_eq ht, afterAll_cons]

end Sys2Proof.Machine
end

