-- ==== Sys2Proof/Laws/Sequencer.lean ====
section
/-!
SUPPORT. The microprogram's entries: which routine each is, what it loads, and the control transfer
that follows it; one primitive of an entry; the step, case by case of the schedule.
-/

namespace Sys2Proof.Machine

/-! ### Entries -/

theorem ofNat_toNat_upc (u : BitVec 5) : BitVec.ofNat 5 u.toNat = u := by simp

/-- Every `upc` of the microprogram holds an operation, which is a routine of at most 50 primitives. -/
theorem entry_of_lt {u : BitVec 5} (h : u.toNat < 26) :
    ∃ i r, entryAt u = some i ∧ routineOf i = some r ∧ (∀ s, exec i s = r.run s) ∧
      entryBody u = r.body ∧ r.body.length ≤ 50 := by
  have all : ∀ n < 26, ∃ i r, entryAt (BitVec.ofNat 5 n) = some i ∧ routineOf i = some r ∧
      (∀ s, exec i s = r.run s) ∧ entryBody (BitVec.ofNat 5 n) = r.body ∧ r.body.length ≤ 50 := by
    intro n hn
    interval_cases n <;> exact ⟨_, _, rfl, rfl, fun _ => rfl, rfl, by decide⟩
  simpa using all u.toNat h

/-- Above 25 there is no entry. -/
theorem entryAt_of_ge {u : BitVec 5} (h : 26 ≤ u.toNat) : entryAt u = none := by
  have hl : microprogram.length = 26 := rfl
  simp [entryAt, List.getElem?_eq_none_iff.mpr (hl ▸ h)]

/-- What an entry loads before its first primitive: the byte a `WBYTE` sends, or nothing. -/
theorem begin_cases {u : BitVec 5} {r : Routine} (hu : u.toNat < 26)
    (hr : (entryAt u).bind routineOf = some r) (s : State) :
    (∃ b, entrySel u = some b ∧ r.begin s = { s with txb := s.cfg.constByte b }) ∨
    (entrySel u = none ∧ r.begin s = s) := by
  have all : ∀ n < 26, (entryAt (BitVec.ofNat 5 n)).bind routineOf = some r →
      (∃ b, entrySel (BitVec.ofNat 5 n) = some b ∧ r.begin s = { s with txb := s.cfg.constByte b }) ∨
      (entrySel (BitVec.ofNat 5 n) = none ∧ r.begin s = s) := by
    intro n hn h
    have key : ∀ r', (entryAt (BitVec.ofNat 5 n)).bind routineOf = some r' → r = r' :=
      fun r' h' => Option.some.inj (h.symm.trans h')
    interval_cases n <;>
      first
      | (rw [key _ rfl]; exact .inr ⟨rfl, rfl⟩)
      | (rw [key _ rfl]; exact .inl ⟨_, rfl, rfl⟩)
  simpa using all u.toNat hu (by simpa using hr)

/-- All that follows the last primitive of the entry at `u` (`42_transaction_sequencer.md` R162). -/
inductive Transfer (u : BitVec 5) (s t : State) : Prop where
  | sequential (h : t = s.nextEntry) (h21 : u ≠ 21#5) (h25 : u ≠ 25#5) (h0 : u ≠ 0#5)
  | idle (h : t = { s.setPh 0#6 with upc := 1#5 }) (hu : u = 0#5) (hb : s.busIdle = true)
  | busBusy (h : t = s.endTransaction .busBusy) (hu : u = 0#5) (hb : s.busIdle = false)
  | noAck (h : t = s.raiseAckTimeout) (hu : u = 3#5 ∨ u = 5#5 ∨ u = 8#5) (hs : s.samp = true)
  | accepted (h : t = State.endTransaction { s with rd := s.rx, valid := true } .none)
      (hu : u = 21#5) (ha : s.rx.accepted = true)
  | rejected (h : t = s.endTransaction .checksumMismatch) (hu : u = 21#5)
      (ha : s.rx.accepted = false)
  | failed (h : t = s.endTransaction s.errPend) (hu : u = 25#5)

theorem idlechk_finish (s : State) : Transfer 0#5 s (idlechkRoutine.finish s) := by
  show Transfer 0#5 s
    (if s.busIdle then { s.setPh 0#6 with upc := 1#5 } else s.endTransaction .busBusy)
  split
  · next h => exact .idle rfl rfl h
  · next h => exact .busBusy rfl rfl (by simpa using h)

theorem ackw_finish {u : BitVec 5} (hu : u = 3#5 ∨ u = 5#5 ∨ u = 8#5) (s : State) :
    Transfer u s (ackwRoutine.finish s) := by
  show Transfer u s (if s.samp then s.raiseAckTimeout else s.nextEntry)
  split
  · next h => exact .noAck rfl hu h
  · refine .sequential rfl ?_ ?_ ?_ <;> rcases hu with rfl | rfl | rfl <;> decide

theorem validate_finish (s : State) : Transfer 21#5 s (validateRoutine.finish s) := by
  show Transfer 21#5 s (if s.rx.accepted then
    State.endTransaction { s with rd := s.rx, valid := true } .none
    else s.endTransaction .checksumMismatch)
  split
  · next h => exact .accepted rfl rfl h
  · next h => exact .rejected rfl rfl (by simpa using h)

/-- The control transfer of every entry. -/
theorem finish_transfer {u : BitVec 5} {r : Routine} (hu : u.toNat < 26)
    (hr : (entryAt u).bind routineOf = some r) (s : State) : Transfer u s (r.finish s) := by
  have all : ∀ n < 26, (entryAt (BitVec.ofNat 5 n)).bind routineOf = some r →
      Transfer (BitVec.ofNat 5 n) s (r.finish s) := by
    intro n hn h
    have key : ∀ r', (entryAt (BitVec.ofNat 5 n)).bind routineOf = some r' → r = r' :=
      fun r' h' => Option.some.inj (h.symm.trans h')
    interval_cases n <;>
      first
      | (rw [key _ rfl]; exact .sequential rfl (by decide) (by decide) (by decide))
      | (rw [key idlechkRoutine rfl]; exact idlechk_finish s)
      | (rw [key ackwRoutine rfl]; exact ackw_finish (by decide) s)
      | (rw [key validateRoutine rfl]; exact validate_finish s)
      | (rw [key failRoutine rfl]; exact .failed rfl rfl)
  simpa using all u.toNat hu (by simpa using hr)

/-! ### One primitive of an entry -/

/-- Everything the engine's smallest step can do while `BUSY = 1`: the primitive at `ph`, and the
control transfer after the last one. `TXB` may be loaded before the first. -/
theorem enginePrimitive_next {s t : State} (hb : s.busy = true) (h : enginePrimitive s = .next t) :
    ∃ r b, (entryAt s.upc).bind routineOf = some r ∧ s.upc.toNat < 26 ∧
      (if s.ph = 0#6 then r.begin s else s) = { s with txb := b } ∧
      ((∃ m u, r.body[s.ph.toNat]? = some m ∧ Performed m { s with txb := b } u ∧
          t = if s.ph.toNat + 1 = r.body.length then r.finish u else u) ∨
       (s.ph = 0#6 ∧ r.body = [] ∧ t = r.finish { s with txb := b })) := by
  have h : runPrimitive s = .next t := by simpa [enginePrimitive, hb] using h
  unfold runPrimitive at h
  split at h
  · next r hr =>
    have hu : s.upc.toNat < 26 := by
      by_contra hn
      simp [entryAt_of_ge (Nat.le_of_not_lt hn)] at hr
    have hbeg : ∃ b, (if s.ph = 0#6 then r.begin s else s) = { s with txb := b } := by
      split
      · rcases begin_cases hu hr s with ⟨b, -, hb⟩ | ⟨-, hb⟩
        · exact ⟨_, hb⟩
        · exact ⟨s.txb, hb⟩
      · exact ⟨s.txb, rfl⟩
    obtain ⟨b, hbeg⟩ := hbeg
    refine ⟨r, b, hr, hu, hbeg, ?_⟩
    rcases Routine.runPrimitive_next h with ⟨m, u, hm, hp, ht⟩ | ⟨h0, hn, ht⟩
    · exact .inl ⟨m, u, hm, perform_next (hbeg ▸ hp), ht⟩
    · rw [if_pos h0] at hbeg
      exact .inr ⟨h0, hn, by rw [ht, hbeg]⟩
  · cases h

/-- The engine idle. -/
theorem engine_of_idle {s : State} (h : s.busy = false) : engine s = .next s := by
  simp [engine, h]

theorem enginePrimitive_of_idle {s : State} (h : s.busy = false) : enginePrimitive s = .next s := by
  simp [enginePrimitive, h]

/-! ### The step, by the schedule -/

theorem step_of_slot {s : State} {w : MicroWord} (hl : s.cfg.legal = true) (hs : s.slot = some w) :
    step s = issue w { s with slot := none } := by
  simp only [step, hl, oneStep, hs, if_true]

theorem step_of_boundary {s : State} (hl : s.cfg.legal = true) (hs : s.slot = none) :
    step s = boundary s := by
  simp only [step, hl, oneStep, hs, if_true]

theorem boundary_nil {s : State} (h : s.inputs = []) : boundary s = engine s := by
  simp only [boundary, h]

theorem boundary_reset {s : State} {rest : List Input} (h : s.inputs = .reset :: rest) :
    boundary s = .next (State.rst { s with inputs := rest }) := by
  simp only [boundary, h]

theorem boundary_prim {s : State} {rest : List Input} (h : s.inputs = .prim :: rest) :
    boundary s = enginePrimitive { s with inputs := rest } := by
  simp only [boundary, h]

theorem boundary_hostNow {s : State} {a : Access} {rest : List Input}
    (h : s.inputs = .hostNow a :: rest) : boundary s = hostAccess a { s with inputs := rest } := by
  simp only [boundary, h]

theorem boundary_hostWhenIdle {s : State} {a : Access} {rest : List Input}
    (h : s.inputs = .hostWhenIdle a :: rest) :
    boundary s = if s.busy then engine s else hostAccess a { s with inputs := rest } := by
  simp only [boundary, h]

end Sys2Proof.Machine
end

