-- ==== Sys2Proof/Tests/Slice0.lean ====
section
/-!
SUPPORT. Tests. Expected values are those of `95_test_vectors.md`, named by its ids, or are written
out from the tables of `30_encoding.md`; the witnesses show that the hypotheses of each statement can
be met.
-/

open Sys2Proof Sys2Proof.Machine

namespace Sys2Proof.Tests

/-- The answer is a next state with the property. -/
def ends (r : Result) (p : State → Bool) : Bool :=
  match r with
  | .next s => p s
  | _ => false

/-- The answer is the refusal. -/
def stops (r : Result) (e : Refusal) : Bool :=
  match r with
  | .refused x => x = e
  | _ => false

/-- The reset state with its lines acquired (H2). -/
def acquired : State := { State.reset with acq := true, done := true }

/-- Both lines, with directions and latches. -/
def lines (c d : Cell) : State := { State.reset with scl := c, sda := d }

/-- The levels a trace sets on `SDA`. -/
def sdaLevels (tr : List Event) : List Level :=
  tr.filterMap fun e => match e.act with
    | .lvl .sda v => some v
    | _ => none

/-! ## Well-formedness: one ill-formed term for each check -/

theorem test_wf_refuses_duration_3 : (Instr.delay 3#2).wf = false := by decide
theorem test_wf_refuses_selector_3 : (Instr.wbyte 3#2).wf = false := by decide
theorem test_wf_refuses_rbit_index_5 : (Instr.rbit 5#3 0#3).wf = false := by decide
theorem test_wf_refuses_rbyte_index_5 : (Instr.rbyte 5#3).wf = false := by decide

/-! ## Decoding: words written out from the encoding tables, one for every constructor -/

theorem test_decode_acquire : decodeHost 0b00000001#8 = .ok .acquire := by decide
theorem test_decode_release : decodeHost 0b00000010#8 = .ok .release := by decide
theorem test_decode_read : decodeHost 0b00000011#8 = .ok .read := by decide
theorem test_decode_write : decodeHost 0b00000100#8 = .ok .write := by decide
theorem test_decode_setdir : decodeMicro 0b0001000000000010#16 = .ok (.setdir .sda .input) := by decide
theorem test_decode_setlvl : decodeMicro 0b0001000100000010#16 = .ok (.setlvl .sda false) := by decide
theorem test_decode_getlvl : decodeMicro 0b0001001000000000#16 = .ok (.getlvl .scl) := by decide
theorem test_decode_delay : decodeMicro 0b0001001100000001#16 = .ok (.delay 1#2) := by decide
theorem test_decode_wbit : decodeMicro 0b0010000000000111#16 = .ok (.wbit 7#3) := by decide
theorem test_decode_wbyte : decodeMicro 0b0010000100000010#16 = .ok (.wbyte 2#2) := by decide
theorem test_decode_rbit : decodeMicro 0b0010001001000001#16 = .ok (.rbit 4#3 1#3) := by decide
theorem test_decode_rbyte : decodeMicro 0b0010001100000011#16 = .ok (.rbyte 3#3) := by decide
theorem test_decode_idlechk : decodeMicro 0b0011000000000000#16 = .ok .idlechk := by decide
theorem test_decode_start : decodeMicro 0b0011000100000000#16 = .ok .start := by decide
theorem test_decode_ackw : decodeMicro 0b0011001000000000#16 = .ok .ackw := by decide
theorem test_decode_restart : decodeMicro 0b0011001100000000#16 = .ok .restart := by decide
theorem test_decode_sack : decodeMicro 0b0011010000000000#16 = .ok .sack := by decide
theorem test_decode_snak : decodeMicro 0b0011010100000000#16 = .ok .snak := by decide
theorem test_decode_stop : decodeMicro 0b0011011000000000#16 = .ok .stop := by decide
theorem test_decode_relln : decodeMicro 0b0011011100000000#16 = .ok .relln := by decide
theorem test_decode_validate : decodeMicro 0b0011100000000000#16 = .ok .validate := by decide
theorem test_decode_fail : decodeMicro 0b0011100100000000#16 = .ok .fail := by decide

/-- Reserved command bytes (R93). -/
theorem test_decode_refuses_commands :
    [0x00#8, 0x05#8, 0xFF#8].all (fun b => decodeHost b = .error .reservedCommand) = true := by decide

/-- Reserved words (P-17, B10, R100): a reserved code, an unused bit, an opcode byte of no operation. -/
theorem test_decode_refuses_words :
    [0x1303#16, 0x2103#16, 0x2305#16, 0x2250#16].all
      (fun w => decodeMicro w = .error .reservedOperand) = true ∧
    [0x1201#16, 0x1004#16, 0x2280#16, 0x2208#16, 0x3001#16].all
      (fun w => decodeMicro w = .error .unusedArgBit) = true ∧
    [0x0000#16, 0x1400#16, 0x3A00#16, 0xFFFF#16].all
      (fun w => decodeMicro w = .error .unknownOp) = true := by decide

theorem test_table_word_reads_both_formats :
    decodeTableWord 8 0x03 = some .read ∧ decodeTableWord 16 0x2223 = some (.rbit 2#3 3#3) ∧
    decodeTableWord 16 0x1303 = none ∧ decodeTableWord 32 0x3000 = none := by decide

/-! ## Operations, one step each -/

/-- H2. -/
theorem test_acquire : ends (exec .acquire State.reset) (fun t => t.status = 0x60#8) = true := by decide

/-- H4. -/
theorem test_release : ends (exec .release acquired) (fun t => t.status = 0x40#8) = true := by decide

/-- H6. -/
theorem test_read_not_acquired :
    ends (exec .read State.reset) (fun t => t.status = 0x45#8 && t.tr = []) = true := by decide

/-- H12. -/
theorem test_read_starts : ends (exec .read acquired) (fun t => t.status = 0xA0#8) = true := by decide

/-- H7, H8. -/
theorem test_write : ends (exec .write acquired) (fun t => t.status = 0x64#8) = true ∧
    ends (exec .write State.reset) (fun t => t.status = 0x44#8) = true := by decide

/-- H9, H11. -/
theorem test_illegal_command :
    ends (hostAccess (.write 0 1 0x00#8) acquired) (fun t => t.status = 0x66#8) = true ∧
    ends (hostAccess (.write 0 1 0x05#8) State.reset) (fun t => t.status = 0x46#8) = true := by decide

/-- H14: the data registers in the order of the window. -/
theorem test_window :
    (List.range 8).map ({ acquired with rd := ⟨45#8, 0#8, 23#8, 5#8, 73#8⟩, valid := true } : State).window
      = [0x00#8, 0x70#8, 45#8, 0#8, 23#8, 5#8, 73#8, 0x00#8] := by decide

/-- P-2: the latch, not the level, is driven. -/
theorem test_setdir :
    ends (exec (.setdir .sda .output) (lines (.inp true) (.inp false)))
      (fun t => t.pads = ⟨false, true, true, false⟩ && t.tr = [⟨0, .dir .sda .output⟩]) = true := by decide

/-- P-7. -/
theorem test_setlvl :
    ends (exec (.setlvl .sda true) (lines (.inp true) (.out false)))
      (fun t => t.sda = .out true && t.scl = .inp true) = true := by decide

/-- P-8: ignored, and recorded. -/
theorem test_setlvl_on_input :
    ends (exec (.setlvl .sda false) (lines (.inp true) (.inp true)))
      (fun t => t.sda = .inp true && t.tr = [⟨0, .lvl .sda false⟩]) = true := by decide

/-- P-9. -/
theorem test_getlvl :
    ends (exec (.getlvl .sda) { State.reset with answers := [false, true] })
      (fun t => t.samp = false && t.answers = [true] && t.tr = [⟨0, .smp .sda false⟩]) = true := by decide

/-- P-11. -/
theorem test_getlvl_driven :
    stops (exec (.getlvl .sda) (lines (.inp true) (.out true))) .getlvlOfDrivenLine = true := by decide

/-- P-12. -/
theorem test_delay_quarter :
    ends (exec (.delay 0#2) { State.reset with now := 20 })
      (fun t => t.now = 30 && t.tr = [⟨20, .dly 10⟩]) = true := by decide

/-- P-16. -/
theorem test_delay_half :
    ends (exec (.delay 1#2) { State.reset with cfg := ⟨100, 0x5C#7⟩ })
      (fun t => t.now = 50) = true := by decide

/-- B1. -/
theorem test_wbit :
    ends (exec (.wbit 7#3) { lines (.out true) (.out false) with txb := 0xB8#8, now := 20 })
      (fun t => t.now = 60 && t.sda = .out true && t.txb = 0xB8#8 &&
        t.tr = [⟨20, .lvl .scl false⟩, ⟨20, .dly 10⟩, ⟨30, .lvl .sda true⟩, ⟨30, .dly 10⟩,
          ⟨40, .lvl .scl true⟩, ⟨40, .dly 20⟩]) = true := by decide

/-- B3 and B4, `ADDR_W`. -/
theorem test_wbyte :
    ends (exec (.wbyte 0#2) { lines (.out true) (.out false) with now := 20 })
      (fun t => t.now = 340 && t.tr.length = 50 && t.sda = .out false &&
        sdaLevels t.tr = [true, false, true, true, true, false, false, false]) = true := by decide

/-- B3, `ADDR_R`: the latch keeps 1. -/
theorem test_wbyte_read_address :
    ends (exec (.wbyte 2#2) State.reset)
      (fun t => t.txb = 0xB9#8 && t.sda = .out true) = true := by decide

/-- B6. -/
theorem test_rbit :
    ends (exec (.rbit 0#3 7#3) { lines (.out false) (.inp false) with now := 1160, answers := [true] })
      (fun t => t.now = 1200 && t.rx.b0 = 0x80#8 && t.samp &&
        t.tr.map Event.time = [1160, 1160, 1180, 1180, 1190, 1190]) = true := by decide

/-- B7: a bit is cleared as well as set. -/
theorem test_rbit_clears :
    ends (exec (.rbit 2#3 3#3) { State.reset with
        rx := ⟨0xFF#8, 0xFF#8, 0xFF#8, 0xFF#8, 0xFF#8⟩, answers := [false] })
      (fun t => t.rx = ⟨0xFF#8, 0xFF#8, 0xF7#8, 0xFF#8, 0xFF#8⟩) = true := by decide

/-- B8, first row, and B9. -/
theorem test_rbyte :
    ends (exec (.rbyte 0#3) { lines (.out true) (.out true) with
        now := 1160, answers := [false, false, true, false, true, true, false, true] })
      (fun t => t.rx.b0 = 45#8 && t.now = 1480 && t.tr.length = 50 && t.answers = []) = true := by decide

/-- B8: the first slot is bit 7, whatever the register held. -/
theorem test_rbyte_first_slot :
    ends (exec (.rbyte 4#3) { State.reset with
        rx := ⟨1#8, 2#8, 3#8, 4#8, 0xFF#8⟩
        answers := [true, false, false, false, false, false, false, false] })
      (fun t => t.rx = ⟨1#8, 2#8, 3#8, 4#8, 0x80#8⟩ && t.samp = false) = true := by decide

/-- T1. -/
theorem test_idlechk :
    ends (exec .idlechk { State.reset with busy := true, answers := [true, true] })
      (fun t => t.upc = 1#5 && t.busy && t.tr.length = 2) = true := by decide

/-- T2: the second sample is taken too. -/
theorem test_idlechk_busy :
    ends (exec .idlechk { State.reset with busy := true, acq := true, answers := [false, true] })
      (fun t => t.status = 0x61#8 && t.samp0 = false && t.samp) = true := by decide

/-- T5. -/
theorem test_start :
    ends (exec .start State.reset)
      (fun t => t.scl = .out true && t.sda = .out false && t.now = 20 && t.tr.length = 4) = true := by decide

/-- T6. -/
theorem test_ackw :
    ends (exec .ackw { lines (.out true) (.out false) with upc := 3#5, now := 340, answers := [false] })
      (fun t => t.upc = 4#5 && t.now = 380 && t.sda = .inp false && t.scl = .out true) = true := by decide

/-- T7. -/
theorem test_ackw_timeout :
    ends (exec .ackw { lines (.out true) (.out false) with
        upc := 3#5, busy := true, acq := true, answers := [true] })
      (fun t => t.upc = 22#5 && t.errPend = .ackTimeout && t.status = 0xA0#8) = true := by decide

/-- T9. -/
theorem test_restart :
    ends (exec .restart { lines (.out true) (.inp false) with now := 740 })
      (fun t => t.scl = .out true && t.sda = .out false && t.now = 800 &&
        sdaLevels t.tr = [true, false]) = true := by decide

/-- T10. -/
theorem test_sack :
    ends (exec .sack { lines (.out true) (.inp true) with now := 1480 })
      (fun t => t.sda = .out false && t.scl = .out true && t.now = 1520) = true := by decide

/-- T12. -/
theorem test_snak :
    ends (exec .snak { lines (.out true) (.inp false) with now := 2920 })
      (fun t => t.sda = .out true && t.scl = .out true && t.now = 2960) = true := by decide

/-- T13. -/
theorem test_stop :
    ends (exec .stop { lines (.out true) (.out true) with now := 2960 })
      (fun t => t.sda = .out true && t.now = 3020 &&
        t.tr.filter (fun e => e.act = .lvl .sda true || e.act = .lvl .sda false)
          = [⟨2970, .lvl .sda false⟩, ⟨3000, .lvl .sda true⟩]) = true := by decide

/-- T14. -/
theorem test_relln :
    ends (exec .relln (lines (.out true) (.out true)))
      (fun t => t.scl = .inp true && t.sda = .inp true && t.now = 0) = true := by decide

/-- V6: the sum wraps. -/
theorem test_validate :
    ends (exec .validate { acquired with busy := true, rx := ⟨200#8, 100#8, 0#8, 0#8, 44#8⟩ })
      (fun t => t.status = 0x70#8 && t.rd = ⟨200#8, 100#8, 0#8, 0#8, 44#8⟩) = true := by decide

/-- V4. -/
theorem test_validate_mismatch :
    ends (exec .validate { acquired with
        busy := true, rx := ⟨255#8, 255#8, 255#8, 255#8, 255#8⟩ })
      (fun t => t.status = 0x63#8 && t.rd = .zero && t.rx = .zero) = true := by decide

/-- T15. -/
theorem test_fail :
    ends (exec .fail { acquired with busy := true, upc := 25#5, errPend := .ackTimeout })
      (fun t => t.status = 0x62#8 && t.upc = 0#5 && t.errPend = .none) = true := by decide

/-! ## The step -/

/-- A microword laid at the execution unit is the next thing the step runs. -/
theorem test_step_runs_microword :
    ends (step (State.reset.withFetchWord 16 0x1003)) (fun t => t.sda = .out true && t.slot = none) = true := by
  decide

/-- So is a command byte. -/
theorem test_step_runs_command :
    ends (step (State.reset.withFetchWord 8 0x01)) (fun t => t.status = 0x60#8 && t.inputs = []) = true := by
  decide

/-- H1. -/
theorem test_step_reads_status :
    ends (step { State.reset with inputs := [.hostNow (.read 1 1)] })
      (fun t => t.replies = [0x00#8] && t.inputs = []) = true := by decide

/-! ## The hypotheses of the statements can be met -/

/-- A state in a transaction: at primitive `ph` of the entry at `upc`, with these lines. -/
def running (upc : BitVec 5) (ph : BitVec 6) (c d : Cell) (txb : Byte) : State :=
  { State.reset with
    scl := c, sda := d, txb := txb, upc := upc, ph := ph, bitn := bitnOf ph, busy := true, acq := true
    errPend := if 22 ≤ upc.toNat then .ackTimeout else .none }

/-- What makes it a state of a run. -/
def isRunning (upc : BitVec 5) (ph : BitVec 6) (c d : Cell) (txb : Byte) : Bool :=
  upc.toNat < 26 && ph.toNat < max 1 (entryBody upc).length &&
  ((entryCells[upc.toNat]?).getD []).any
    (fun x => ((entryBody upc).take ph.toNat).foldl (Micro.onCells txb) x = (c, d)) &&
  (match entrySel upc with
    | some b => txb = Params.default.constByte b
    | none => true)

theorem inv_running {upc : BitVec 5} {ph : BitVec 6} {c d : Cell} {txb : Byte}
    (h : isRunning upc ph c d txb = true) : Inv (running upc ph c d txb) := by
  simp only [isRunning, Bool.and_eq_true, decide_eq_true_eq, List.any_eq_true] at h
  obtain ⟨⟨⟨h1, h2⟩, x, hx, hl⟩, h3⟩ := h
  exact {
    slot := rfl
    status := (by show State.status (running upc ph c d txb) ∈ visibleStatus
                  simp only [State.status, running]; decide)
    bitn := rfl
    noReading := fun _ => rfl
    reading := fun h => nomatch h
    idle := (fun h => nomatch h)
    running := fun _ =>
      { entry := h1
        phase := h2
        lines := ⟨x, hx, hl⟩
        loaded := (fun _ b hb => by
          rw [show (running upc ph c d txb).upc = upc from rfl] at hb
          rw [hb] at h3
          exact of_decide_eq_true h3)
        pending := rfl } }

/-- An idle state of a run, its lines acquired, holding a Reading (H14). -/
def withReading : State :=
  { acquired with rd := ⟨45#8, 0#8, 23#8, 5#8, 73#8⟩, valid := true }

theorem inv_acquired : Inv acquired :=
  { slot := rfl, status := (by decide), bitn := (by decide), noReading := fun _ => rfl
    reading := (fun h => nomatch h)
    idle := (fun _ => { scl := rfl, sda := rfl, upc := rfl, ph := rfl, errPend := rfl })
    running := (fun h => nomatch h) }

theorem inv_withReading : Inv withReading :=
  { slot := rfl, status := (by decide), bitn := (by decide), noReading := (fun h => nomatch h)
    reading := (fun _ => by decide)
    idle := (fun _ => { scl := rfl, sda := rfl, upc := rfl, ph := rfl, errPend := rfl })
    running := (fun h => nomatch h) }

/-- Entry 1, its second primitive: `SDA` is turned out under a high clock. -/
theorem running_start : Inv (running 1#5 1#6 (.out true) (.inp true) 0#8) := inv_running (by decide)

/-- The abort tail. -/
theorem running_abort : Inv (running 22#5 0#6 (.out true) (.inp false) 0xB8#8) := inv_running (by decide)

/-- The state to which `READ` brings the acquired machine. -/
theorem running_first : Inv (running 0#5 0#6 (.inp true) (.inp true) 0#8) := inv_running (by decide)

/-! ### Encoding and operands -/

theorem witness_DecodeOfEncode : (Instr.rbit 4#3 7#3).wf = true := by decide

theorem witness_OnlyItsEncoding : decode (.micro 0x2247#16) = .ok (.rbit 4#3 7#3) := by decide

/-- The premises on the word, one for each clause, at its first and its last value. -/
theorem witness_ReservedMicroword :
    (let s : State := { State.reset with slot := some (0x13#8 ++ 0x03#8) }
     s.cfg.legal = true ∧ s.slot = some (0x13#8 ++ 0x03#8)) ∧
    ((0x0F#8).toNat < 0x10 ∧ 0x13 < (0x14#8).toNat ∧ (0x1F#8).toNat < 0x20 ∧ 0x23 < (0x24#8).toNat ∧
      (0x2F#8).toNat < 0x30 ∧ 0x39 < (0x3A#8).toNat) ∧
    0x04#8 &&& 0xFC#8 ≠ 0#8 ∧ 0x01#8 &&& 0xFD#8 ≠ 0#8 ∧ (0x03#8).extractLsb' 0 2 = 3#2 ∧
    0x08#8 &&& 0xF8#8 ≠ 0#8 ∧ 0x80#8 &&& 0x88#8 ≠ 0#8 ∧ 4 < ((0x50#8).extractLsb' 4 3).toNat ∧
    4 < ((0x05#8).extractLsb' 0 3).toNat ∧ (0x30 ≤ (0x30#8).toNat ∧ 0x01#8 ≠ 0#8) := by
  decide

/-- The smallest legal period (R6). -/
theorem witness_LegalPeriod : (Params.mk 4 0#7).legal = true := by decide

theorem witness_InsertBit : (0 : Nat) < 8 ∧ (7 : Nat) < 8 := by decide

/-! ### Primitives and transfer -/

theorem witness_Getlvl :
    (State.reset.cell .sda).dir = .input ∧ ((lines (.inp true) (.out true)).cell .sda).dir = .output := by
  decide

/-- Each duration code meets the hypothesis with its own duration, and no two share one. -/
theorem witness_Delay :
    let f := State.reset.cfg.tFullUs
    (0#2 = 0#2 ∧ 10 = f / 4) ∧ (1#2 = 1#2 ∧ 20 = f / 2) ∧ (2#2 = 2#2 ∧ 40 = f) := by decide

theorem witness_Wbyte :
    let p := State.reset.cfg
    (0#2 = 0#2 ∧ 0xB8#8 = p.addrW) ∧ (1#2 = 1#2 ∧ 0x00#8 = 0x00#8) ∧ (2#2 = 2#2 ∧ 0xB9#8 = p.addrR) := by
  decide

theorem witness_Rbit :
    State.reset.sda.dir = .input ∧ (lines (.inp true) (.out true)).sda.dir = .output ∧
    4 < (5#3).toNat ∧ 4 < (7#3).toNat := by decide

theorem witness_Rbyte : 4 < (5#3).toNat ∧ 4 < (7#3).toNat := by decide

theorem witness_Receiver :
    let s := lines (.out true) (.out false)
    s.cfg.legal = true ∧ s.scl.dir = .output ∧ s.sda.dir = .output := by decide

/-! ### Transaction operations -/

/-- The entry state `t` of the statement is any state of its form: here the one of P4. -/
theorem witness_Idlechk :
    let s : State := { acquired with answers := [true, false] }
    s.scl.dir = .input ∧ s.sda.dir = .input ∧
    (lines (.out true) (.inp true)).scl.dir = .output ∧ (lines (.inp true) (.out true)).sda.dir = .output ∧
    ∃ t : State, t = { s with
      samp0 := s.level 0
      samp := s.level 1
      answers := s.answers.drop 2
      asked := s.asked + 2
      tr := s.tr ++ [⟨s.now, .smp .scl (s.level 0)⟩, ⟨s.now, .smp .sda (s.level 1)⟩]
      ph := 0#6 } := by
  refine ⟨by decide, by decide, by decide, by decide, _, rfl⟩

theorem witness_Ackw :
    let s : State := { lines (.out true) (.out false) with answers := [false] }
    ∃ t : State, t = { s with
      scl := s.scl.drive true
      sda := ⟨.input, s.sda.lat⟩
      samp := s.level 0
      answers := s.answers.drop 1
      asked := s.asked + 1
      now := s.now + (s.cfg.us .h + s.cfg.us .q + s.cfg.us .q)
      tr := s.tr ++ stamped s.now (ackwActs s.cfg (s.level 0))
      ph := 0#6 } := ⟨_, rfl⟩

theorem witness_Validate :
    ∃ t : State, t = { State.reset with
      busy := false, done := true, upc := 0#5, ph := 0#6, errPend := .none } := ⟨_, rfl⟩

/-! ### Host commands and the window -/

/-- For `ACQUIRE`, `RELEASE`, `WRITE`, and `READ` with the lines not acquired. -/
theorem witness_IdleCommand : State.reset.busy = false ∧ State.reset.acq = false := by decide

theorem witness_ReadStarts : acquired.busy = false ∧ acquired.acq = true := by decide

theorem witness_ReservedCommand :
    State.reset.busy = false ∧ (0x00#8 = 0x00#8 ∨ 5 ≤ (0x00#8).toNat) ∧
    (0x05#8 = 0x00#8 ∨ 5 ≤ (0x05#8).toNat) ∧ (0xFF#8 = 0x00#8 ∨ 5 ≤ (0xFF#8).toNat) := by decide

theorem witness_CommandWhileBusy : (running 0#5 0#6 (.inp true) (.inp true) 0#8).busy = true := rfl

/-- The ends of the three ranges of the window rules, which do not overlap. -/
theorem witness_Window :
    (0 ≤ 7 ∧ 7 ≤ 7) ∧ (1 ≤ 1 ∧ 1 ≤ 7 ∧ 1 ≤ 7 ∧ 7 ≤ 7) ∧ ((8 ≤ 8 ∨ 1 ≠ 1) ∧ (8 ≤ 0 ∨ 2 ≠ 1)) := by decide

/-! ### The step -/

theorem witness_StepRuns :
    (let s : State := { State.reset with slot := some 0x1003#16 }
     s.cfg.legal = true ∧ s.slot = some 0x1003#16 ∧
       decodeMicro 0x1003#16 = .ok (.setdir .sda .output)) ∧
    (let s : State := { State.reset with inputs := [.hostNow (.write 0 1 0x01#8)] }
     s.slot = none ∧ decodeHost 0x01#8 = .ok .acquire ∧
       s.inputs = .hostNow (.write 0 1 0x01#8) :: []) ∧
    (let s : State := { State.reset with inputs := [.hostWhenIdle (.write 0 1 0x01#8)] }
     s.slot = none ∧ s.busy = false ∧ s.inputs = .hostWhenIdle (.write 0 1 0x01#8) :: []) ∧
    (let s := running 0#5 0#6 (.inp true) (.inp true) 0#8
     s.slot = none ∧ s.busy = true ∧ s.ph = 0#6 ∧ s.inputs = [] ∧
       microprogram[s.upc.toNat]? = some 0x3000#16 ∧ decodeMicro 0x3000#16 = .ok .idlechk) ∧
    (let s : State := { running 0#5 0#6 (.inp true) (.inp true) 0#8 with
       inputs := [.hostWhenIdle (.read 1 1)] }
     s.slot = none ∧ s.busy = true ∧ s.inputs = .hostWhenIdle (.read 1 1) :: []) := by
  decide

theorem witness_IdleWaits :
    State.reset.cfg.legal = true ∧ State.reset.slot = none ∧ State.reset.busy = false ∧
    State.reset.inputs = [] := by decide

/-- An entry of 50 primitives, one of none, and a `upc` past the microprogram. -/
theorem witness_PrimitiveSteps :
    (let s := running 2#5 0#6 (.out true) (.out false) 0#8
     s.busy = true ∧ s.ph = 0#6 ∧ (entryBody s.upc).length = 50) ∧
    (let s := running 25#5 0#6 (.inp true) (.inp true) 0#8
     s.busy = true ∧ s.ph = 0#6 ∧ entryBody s.upc = []) ∧
    (let s := running 26#5 0#6 (.inp true) (.inp true) 0#8
     s.busy = true ∧ s.ph = 0#6 ∧ entryAt s.upc = none) := by decide

theorem witness_ResetInput :
    let s : State := { running 1#5 1#6 (.out true) (.inp true) 0#8 with inputs := [.reset] }
    s.cfg.legal = true ∧ s.slot = none ∧ s.inputs = .reset :: [] := by decide

theorem witness_NothingWrites :
    (∃ t, exec .start State.reset = .next t) ∧ ∃ t, step State.reset = .next t := ⟨⟨_, rfl⟩, ⟨_, rfl⟩⟩

/-! ### Invariants and whole-machine rules -/

/-- Idle, and in the middle of an entry. -/
theorem witness_EveryStepKeeps :
    (Inv acquired ∧ ∃ t, step acquired = .next t) ∧
    (Inv (running 1#5 1#6 (.out true) (.inp true) 0#8) ∧
      ∃ t, step (running 1#5 1#6 (.out true) (.inp true) 0#8) = .next t) :=
  ⟨⟨inv_acquired, _, rfl⟩, running_start, _, rfl⟩

theorem witness_NoRunIsRefused :
    Inv acquired ∧ acquired.cfg.legal = true ∧ acquired.inputs.all Input.exists = true :=
  ⟨inv_acquired, by decide, by decide⟩

theorem witness_EveryRun :
    ∃ t, Host.Core.run core 1 { State.reset with
      cfg := Params.default, answers := [true], inputs := [.hostNow (.write 0 1 0x01#8)] } = .next t :=
  ⟨_, rfl⟩

/-- One state at a primitive of each kind. -/
theorem witness_EveryPrimitive :
    (Inv (running 0#5 0#6 (.inp true) (.inp true) 0#8) ∧ (entryBody 0#5)[0]? = some (.keepFirst .scl)) ∧
    (Inv (running 0#5 1#6 (.inp true) (.inp true) 0#8) ∧ (entryBody 0#5)[1]? = some (.getLvl .sda)) ∧
    (Inv (running 1#5 1#6 (.out true) (.inp true) 0#8) ∧ (entryBody 1#5)[1]? = some (.setDir .sda .output)) ∧
    (Inv (running 1#5 2#6 (.out true) (.out true) 0#8) ∧ (entryBody 1#5)[2]? = some (.setLvl .sda false)) ∧
    (Inv (running 2#5 4#6 (.out false) (.out false) 0xB8#8) ∧ (entryBody 2#5)[4]? = some (.sendBit 7#3)) ∧
    (Inv (running 9#5 6#6 (.out true) (.inp true) 0xB9#8) ∧ (entryBody 9#5)[6]? = some (.takeBit 0 7#3)) ∧
    (Inv (running 1#5 3#6 (.out true) (.out false) 0#8) ∧ (entryBody 1#5)[3]? = some (.delay .h)) :=
  ⟨⟨running_first, by decide⟩, ⟨inv_running (by decide), by decide⟩, ⟨running_start, by decide⟩,
    ⟨inv_running (by decide), by decide⟩, ⟨inv_running (by decide), by decide⟩,
    ⟨inv_running (by decide), by decide⟩, inv_running (by decide), by decide⟩

/-- A state of the invariant in which the engine changes what it drives on `SDA` under a high clock. -/
def movesData (upc : BitVec 5) (ph : BitVec 6) (d : Cell) (txb : Byte) : Prop :=
  let s := running upc ph (.out true) d txb
  Inv s ∧ s.busy = true ∧ s.scl = ⟨.output, true⟩ ∧
    ∃ t, enginePrimitive s = .next t ∧ t.sda.drives ≠ s.sda.drives

/-- Each clause at each of its entries. -/
theorem witness_DataMoves :
    movesData 1#5 1#6 (.inp true) 0#8 ∧ movesData 4#5 1#6 (.inp false) 0#8 ∧
    movesData 1#5 2#6 (.out true) 0#8 ∧ movesData 6#5 6#6 (.out true) 0#8 ∧
    movesData 19#5 6#6 (.out false) 0xB9#8 ∧ movesData 23#5 6#6 (.out false) 0xB8#8 :=
  ⟨⟨running_start, rfl, rfl, _, rfl, by decide⟩, ⟨inv_running (by decide), rfl, rfl, _, rfl, by decide⟩,
    ⟨inv_running (by decide), rfl, rfl, _, rfl, by decide⟩,
    ⟨inv_running (by decide), rfl, rfl, _, rfl, by decide⟩,
    ⟨inv_running (by decide), rfl, rfl, _, rfl, by decide⟩,
    ⟨inv_running (by decide), rfl, rfl, _, rfl, by decide⟩⟩

/-- Inside an entry, at the end of one, at an acknowledge that did not come, at the end of a run. -/
theorem witness_ControlTransfers :
    (Inv (running 1#5 1#6 (.out true) (.inp true) 0#8) ∧
      ∃ t, enginePrimitive (running 1#5 1#6 (.out true) (.inp true) 0#8) = .next t) ∧
    (Inv (running 1#5 3#6 (.out true) (.out false) 0#8) ∧
      ∃ t, enginePrimitive (running 1#5 3#6 (.out true) (.out false) 0#8) = .next t) ∧
    (Inv (running 3#5 6#6 (.out true) (.inp false) 0xB8#8) ∧
      ∃ t, enginePrimitive (running 3#5 6#6 (.out true) (.inp false) 0xB8#8) = .next t) ∧
    (Inv (running 25#5 0#6 (.inp true) (.inp true) 0xB8#8) ∧
      ∃ t, enginePrimitive (running 25#5 0#6 (.inp true) (.inp true) 0xB8#8) = .next t) :=
  ⟨⟨running_start, _, rfl⟩, ⟨inv_running (by decide), _, rfl⟩, ⟨inv_running (by decide), _, rfl⟩,
    inv_running (by decide), _, rfl⟩

/-- The first and the last phase with a bit index. -/
theorem witness_BitIndex :
    (Inv (running 2#5 2#6 (.out true) (.out false) 0xB8#8) ∧ (entryBody 2#5).length = 50) ∧
    Inv (running 2#5 49#6 (.out true) (.out false) 0xB8#8) :=
  ⟨⟨inv_running (by decide), by decide⟩, inv_running (by decide)⟩

/-- A command that clears a Reading. -/
theorem witness_ResultChanges :
    let s : State := { withReading with inputs := [.hostNow (.write 0 1 0x04#8)] }
    Inv s ∧ ∃ t, step s = .next t ∧ t.rd ≠ s.rd :=
  ⟨{ slot := rfl, status := inv_withReading.status, bitn := rfl, noReading := inv_withReading.noReading
     reading := inv_withReading.reading
     idle := (fun _ => { scl := rfl, sda := rfl, upc := rfl, ph := rfl, errPend := rfl })
     running := (fun h => nomatch h) }, _, rfl, by decide⟩

theorem witness_HostCannotDisturb :
    let s : State := { running 0#5 0#6 (.inp true) (.inp true) 0#8 with
      inputs := [.hostNow (.write 0 1 0x03#8)] }
    Inv s ∧ s.busy = true ∧ s.inputs = .hostNow (.write 0 1 0x03#8) :: [] ∧ ∃ t, step s = .next t :=
  ⟨{ slot := rfl, status := running_first.status, bitn := rfl, noReading := fun _ => rfl
     reading := (fun h => nomatch h)
     idle := (fun h => nomatch h)
     running := (fun _ =>
      { entry := (by decide), phase := (by decide), lines := ⟨(.inp true, .inp true), by decide, rfl⟩
        loaded := (fun h => absurd rfl h), pending := rfl }) }, rfl, rfl, _, rfl⟩

theorem witness_ResultStays :
    withReading.slot = none ∧ withReading.busy = false ∧ (∃ t, step withReading = .next t) ∧
    (∀ v rest, withReading.inputs ≠ .hostNow (.write 0 1 v) :: rest ∧
      withReading.inputs ≠ .hostWhenIdle (.write 0 1 v) :: rest) ∧
    (∀ rest, withReading.inputs ≠ .reset :: rest) :=
  ⟨rfl, rfl, ⟨_, rfl⟩, fun _ _ => ⟨nofun, nofun⟩, fun _ => nofun⟩

theorem witness_EveryTransactionEnds :
    let s := running 0#5 0#6 (.inp true) (.inp true) 0#8
    Inv s ∧ s.cfg.legal = true ∧ s.busy = true ∧ s.ph = 0#6 ∧ s.inputs = [] :=
  ⟨running_first, by decide, rfl, rfl, rfl⟩

/-- For the call view and the lengths of the runs. -/
theorem witness_AcquiredRead :
    Inv acquired ∧ acquired.cfg.legal = true ∧ acquired.busy = false ∧ acquired.acq = true ∧
    acquired.inputs = [] := ⟨inv_acquired, by decide, rfl, rfl, rfl⟩

theorem witness_BusBusy :
    let s : State := { acquired with answers := [true, false] }
    Inv s ∧ s.busy = false ∧ s.acq = true ∧ (s.level 0 = false ∨ s.level 1 = false) :=
  ⟨{ slot := rfl, status := (by decide), bitn := rfl, noReading := fun _ => rfl
     reading := (fun h => nomatch h)
     idle := (fun _ => { scl := rfl, sda := rfl, upc := rfl, ph := rfl, errPend := rfl })
     running := (fun h => nomatch h) }, rfl, rfl, .inr rfl⟩

theorem witness_AbortTail :
    let s := running 22#5 0#6 (.out true) (.inp false) 0xB8#8
    Inv s ∧ s.cfg.legal = true ∧ s.busy = true ∧ s.upc = 22#5 ∧ s.ph = 0#6 ∧ s.inputs = [] :=
  ⟨running_abort, by decide, rfl, rfl, rfl, rfl⟩

end Sys2Proof.Tests
end

section
/-!
PROOFS. The family of `00_scope.md`: the durations and the address bytes of the configuration, what the
step executes, what no operation writes, and the agreement of the two granularities of `R16`.
-/

namespace Sys2Proof

/-! ### Durations and address bytes -/

/-- R6 as divisibility: what a legal period is to the arithmetic below. -/
theorem Params.legal_iff (p : Params) : p.legal = true ↔ 4 ∣ p.tFullUs ∧ 4 ≤ p.tFullUs := by
  simp [Params.legal]

/-- Settles O6: a period of `4 * k` has the half `2 * k` and the quarter `k`. -/
theorem legalPeriodDividesExactly : Obligations.LegalPeriodDividesExactly := by
  refine ⟨fun p hp => ?_, rfl, rfl, rfl⟩
  obtain ⟨⟨k, hk⟩, hmin⟩ := p.legal_iff.mp hp
  have hfull : p.us .f = 4 * k := hk
  have hhalf : p.us .h = 2 * k := by simp only [Params.us]; omega
  have hquarter : p.us .q = k := by simp only [Params.us]; omega
  rw [hfull, hhalf, hquarter]
  omega

/-- Shifting left by one and putting `b` in bit 0 is appending `b`. -/
theorem shiftLeft_one_or_eq_append (a : BitVec 7) (b : BitVec 1) :
    (a.setWidth 8 <<< 1) ||| b.setWidth 8 = a ++ b := by
  refine BitVec.eq_of_getLsbD_eq fun i hi => ?_
  refine Eq.trans ?_ (BitVec.getLsbD_append (x := a) (y := b)).symm
  cases i with
  | zero => simp
  | succ n => simp [hi]

/-- Settles O7, both bytes being one shift with another bit put in. -/
theorem addressBytesCarryTheDirectionBit : Obligations.AddressBytesCarryTheDirectionBit := by
  intro p
  constructor
  · have h := shiftLeft_one_or_eq_append p.devAddr 0#1
    simpa [Params.addrW] using h
  · exact shiftLeft_one_or_eq_append p.devAddr 1#1

end Sys2Proof

namespace Sys2Proof.Machine

/-! ### What the step executes -/

theorem issue_of_decode {w : MicroWord} {i : Instr} (h : decodeMicro w = .ok i) (s : State) :
    issue w s = exec i s := by
  simp only [issue, h]

theorem hostAccess_of_decode {v : Byte} {i : Instr} (h : decodeHost v = .ok i) (s : State) :
    hostAccess (.write 0 1 v) s = exec i s := by
  simp [hostAccess, hostCommand, h]

theorem runEntry_of_entryAt {s : State} {i : Instr} (h : entryAt s.upc = some i) :
    runEntry s = exec i s := by
  simp only [runEntry, h]

theorem engine_of_entry {s : State} {i : Instr} (hb : s.busy = true) (hp : s.ph = 0#6)
    (h : entryAt s.upc = some i) : engine s = exec i s := by
  rw [engine, if_pos hb, if_pos hp, runEntry_of_entryAt h]

theorem entryAt_of_word {u : BitVec 5} {w : MicroWord} {i : Instr}
    (hw : microprogram[u.toNat]? = some w) (hi : decodeMicro w = .ok i) : entryAt u = some i := by
  simp [entryAt, hw, hi, Except.toOption]

/-- Settles O38, one clause per place the step takes an operation from. -/
theorem stepRunsTheDecodedOperation : Obligations.StepRunsTheDecodedOperation := by
  intro s i hl
  refine ⟨fun w hs hi => ?slot, fun v rest hs hi hin => ?command, fun w hs hb hp hw hi hin => ?entry⟩
  case slot => rw [step_of_slot hl hs, issue_of_decode hi]
  case command =>
    rw [step_of_boundary hl hs]
    obtain hin | ⟨hb, hin⟩ := hin
    · rw [boundary_hostNow hin, hostAccess_of_decode hi]
    · rw [boundary_hostWhenIdle hin, hb, if_neg Bool.false_ne_true, hostAccess_of_decode hi]
  case entry =>
    rw [step_of_boundary hl hs, ← engine_of_entry hb hp (entryAt_of_word hw hi)]
    obtain hin | ⟨a, rest, hin⟩ := hin
    · exact boundary_nil hin
    · rw [boundary_hostWhenIdle hin, if_pos hb]

/-! ### What surrounds the engine -/

/-- The fields that no meaning writes: the configuration (R6), the host's side and the slot. -/
def State.surroundings (s : State) : Params × List Input × List Byte × Option MicroWord :=
  (s.cfg, s.inputs, s.replies, s.slot)

theorem State.surroundings_eq_iff (s t : State) :
    t.surroundings = s.surroundings ↔
      t.cfg = s.cfg ∧ t.inputs = s.inputs ∧ t.replies = s.replies ∧ t.slot = s.slot := by
  simp [State.surroundings]

theorem State.cfg_of_surroundings {s t : State} (h : t.surroundings = s.surroundings) :
    t.cfg = s.cfg := congrArg Prod.fst h

@[simp] theorem State.nextEntry_surroundings (s : State) :
    s.nextEntry.surroundings = s.surroundings := rfl
@[simp] theorem State.raiseAckTimeout_surroundings (s : State) :
    s.raiseAckTimeout.surroundings = s.surroundings := rfl
@[simp] theorem State.endTransaction_surroundings (s : State) (e : Err) :
    (s.endTransaction e).surroundings = s.surroundings := rfl
@[simp] theorem State.accept_surroundings (s : State) :
    s.accept.surroundings = s.surroundings := rfl
@[simp] theorem State.complete_surroundings (s : State) (e : Err) :
    (s.complete e).surroundings = s.surroundings := rfl
@[simp] theorem State.beginTransaction_surroundings (s : State) :
    s.beginTransaction.surroundings = s.surroundings := rfl

theorem Performed.surroundings {m : Micro} {s t : State} (h : Performed m s t) :
    t.surroundings = s.surroundings :=
  (State.surroundings_eq_iff s t).mpr ⟨h.cfg, h.inputs, h.replies, h.slot⟩

theorem runAll_surroundings {ms : List Micro} {s t : State} (h : runAll ms s = .next t) :
    t.surroundings = s.surroundings := by
  have r := runAll_next h
  exact (State.surroundings_eq_iff s t).mpr ⟨r.cfg, r.inputs, r.replies, r.slot⟩

/-- A command keeps the surroundings where its effect does. -/
theorem command_surroundings {f : State → State} {s t : State}
    (hf : (f s.accept).surroundings = s.accept.surroundings) (h : command f s = .next t) :
    t.surroundings = s.surroundings := by
  rw [command_eq] at h
  cases h
  split
  · rfl
  · rw [hf, State.accept_surroundings]

/-- A routine whose load and whose control transfer keep the surroundings. -/
structure Routine.KeepsSurroundings (r : Routine) : Prop where
  begin_eq : ∀ s, (r.begin s).surroundings = s.surroundings
  finish_eq : ∀ s, (r.finish s).surroundings = s.surroundings

theorem Transfer.surroundings {u : BitVec 5} {s t : State} (h : Transfer u s t) :
    t.surroundings = s.surroundings := by
  cases h with
  | sequential h => rw [h, State.nextEntry_surroundings]
  | idle h => rw [h]; rfl
  | busBusy h => rw [h, State.endTransaction_surroundings]
  | noAck h => rw [h, State.raiseAckTimeout_surroundings]
  | accepted h => rw [h, State.endTransaction_surroundings]; rfl
  | rejected h => rw [h, State.endTransaction_surroundings]
  | failed h => rw [h, State.endTransaction_surroundings]

/-- Every operation that can be an entry is such a routine. -/
theorem routineOf_keepsSurroundings {i : Instr} {r : Routine} (h : routineOf i = some r) :
    r.KeepsSurroundings := by
  cases i with
  | wbyte sel =>
    obtain ⟨b, -, rfl⟩ := Option.map_eq_some_iff.mp h
    exact ⟨fun _ => rfl, State.nextEntry_surroundings⟩
  | rbyte k =>
    obtain ⟨j, -, rfl⟩ := Option.map_eq_some_iff.mp h
    exact ⟨fun _ => rfl, State.nextEntry_surroundings⟩
  | idlechk => cases h; exact ⟨fun _ => rfl, fun s => (idlechk_finish s).surroundings⟩
  | ackw => cases h; exact ⟨fun _ => rfl, fun s => (ackw_finish (.inl rfl) s).surroundings⟩
  | validate => cases h; exact ⟨fun _ => rfl, fun s => (validate_finish s).surroundings⟩
  | fail => cases h; exact ⟨fun _ => rfl, fun s => s.endTransaction_surroundings s.errPend⟩
  | start | restart | sack | snak | stop | relln =>
    cases h; exact ⟨fun _ => rfl, State.nextEntry_surroundings⟩
  | acquire | release | read | write | setdir | setlvl | getlvl | delay | wbit | rbit => cases h

/-- An operation that is a routine executes as that routine. -/
theorem exec_of_routineOf {i : Instr} {r : Routine} (h : routineOf i = some r) (s : State) :
    exec i s = r.run s := by
  cases i with
  | wbyte sel =>
    obtain ⟨b, hb, rfl⟩ := Option.map_eq_some_iff.mp h
    simp only [exec, execWbyte, hb]
  | rbyte k =>
    obtain ⟨j, hj, rfl⟩ := Option.map_eq_some_iff.mp h
    simp only [exec, execRbyte, hj]
  | idlechk | start | ackw | restart | sack | snak | stop | relln | validate | fail =>
    cases h; rfl
  | acquire | release | read | write | setdir | setlvl | getlvl | delay | wbit | rbit => cases h

theorem Routine.run_surroundings {r : Routine} (hr : r.KeepsSurroundings) {s t : State}
    (h : r.run s = .next t) : t.surroundings = s.surroundings := by
  obtain ⟨u, hu, rfl⟩ := Routine.run_next h
  rw [hr.finish_eq, runAll_surroundings hu, hr.begin_eq]

/-- A single primitive is a list of one. -/
theorem perform_surroundings {m : Micro} {s t : State} (h : perform m s = .next t) :
    t.surroundings = s.surroundings := (perform_next h).surroundings

/-- The operations that are no entries: commands, single primitives and bit slots, and the codes that
are refused. -/
theorem exec_surroundings_of_not_routine {i : Instr} (hi : routineOf i = none) {s t : State}
    (h : exec i s = .next t) : t.surroundings = s.surroundings := by
  cases i with
  | acquire =>
    simp only [exec, execAcquire] at h
    exact command_surroundings rfl h
  | release =>
    simp only [exec, execRelease] at h
    exact command_surroundings rfl h
  | read =>
    simp only [exec, execRead] at h
    refine command_surroundings ?_ h
    split
    · exact State.beginTransaction_surroundings _
    · exact State.complete_surroundings _ _
  | write =>
    simp only [exec, execWrite] at h
    exact command_surroundings rfl h
  | setdir l d => exact perform_surroundings (m := .setDir l d) h
  | setlvl l v => exact perform_surroundings (m := .setLvl l v) h
  | getlvl l => exact perform_surroundings (m := .getLvl l) h
  | delay c =>
    simp only [exec, execDelay] at h
    split at h
    · next d _ => exact perform_surroundings (m := .delay d) h
    · cases h
  | wbit n => exact runAll_surroundings (ms := wbitBody n) h
  | rbit k n =>
    simp only [exec, execRbit] at h
    split at h
    · next j _ => exact runAll_surroundings h
    · cases h
  | wbyte sel => simp [exec, execWbyte, Option.map_eq_none_iff.mp hi] at h
  | rbyte k => simp [exec, execRbyte, Option.map_eq_none_iff.mp hi] at h
  | idlechk | start | ackw | restart | sack | snak | stop | relln | validate | fail => cases hi

/-- No meaning writes the surroundings. -/
theorem exec_surroundings {i : Instr} {s t : State} (h : exec i s = .next t) :
    t.surroundings = s.surroundings := by
  cases hi : routineOf i with
  | none => exact exec_surroundings_of_not_routine hi h
  | some r =>
    rw [exec_of_routineOf hi] at h
    exact Routine.run_surroundings (routineOf_keepsSurroundings hi) h

theorem runEntry_surroundings {s t : State} (h : runEntry s = .next t) :
    t.surroundings = s.surroundings := by
  unfold runEntry at h
  split at h
  · exact exec_surroundings h
  · cases h

theorem Routine.runPrimitive_surroundings {r : Routine} (hr : r.KeepsSurroundings) {s t : State}
    (h : r.runPrimitive s = .next t) : t.surroundings = s.surroundings := by
  obtain ⟨m, u, -, hp, rfl⟩ | ⟨-, -, rfl⟩ := Routine.runPrimitive_next h
  · have hu : u.surroundings = s.surroundings := by
      rw [perform_surroundings hp]
      split
      · exact hr.begin_eq s
      · rfl
    split
    · rw [hr.finish_eq, hu]
    · exact hu
  · rw [hr.finish_eq, hr.begin_eq]

theorem runPrimitive_surroundings {s t : State} (h : runPrimitive s = .next t) :
    t.surroundings = s.surroundings := by
  unfold runPrimitive at h
  split at h
  · next r hr =>
    obtain ⟨i, -, hi⟩ := Option.bind_eq_some_iff.mp hr
    exact Routine.runPrimitive_surroundings (routineOf_keepsSurroundings hi) h
  · cases h

theorem enginePrimitive_surroundings {s t : State} (h : enginePrimitive s = .next t) :
    t.surroundings = s.surroundings := by
  unfold enginePrimitive at h
  split at h
  · exact runPrimitive_surroundings h
  · cases h; rfl

theorem engine_surroundings {s t : State} (h : engine s = .next t) :
    t.surroundings = s.surroundings := by
  unfold engine at h
  split at h
  · split at h
    · exact runEntry_surroundings h
    · exact runPrimitive_surroundings h
  · cases h; rfl

theorem issue_surroundings {w : MicroWord} {s t : State} (h : issue w s = .next t) :
    t.surroundings = s.surroundings := by
  unfold issue at h
  split at h
  · exact exec_surroundings h
  · cases h

theorem hostCommand_surroundings {v : Byte} {s t : State} (h : hostCommand v s = .next t) :
    t.surroundings = s.surroundings := by
  unfold hostCommand at h
  split at h
  · exact exec_surroundings h
  · exact command_surroundings rfl h

/-- A host access may add a reply, but leaves the configuration. -/
theorem hostAccess_cfg {a : Access} {s t : State} (h : hostAccess a s = .next t) : t.cfg = s.cfg := by
  obtain ⟨n, -, -, rfl⟩ | ⟨n, v, -, -, -, rfl⟩ | ⟨v, -, h⟩ := hostAccess_next h
  · rfl
  · rfl
  · exact State.cfg_of_surroundings (hostCommand_surroundings h)

/-- R6, for the step: one case per item of the schedule. -/
theorem step_cfg {s t : State} (h : step s = .next t) : t.cfg = s.cfg := by
  obtain ⟨-, ⟨w, -, h⟩ | ⟨-, ⟨-, h⟩ | ⟨rest, -, rfl⟩ | ⟨rest, -, h⟩ | ⟨a, rest, -, h⟩ |
    ⟨a, rest, -, -, h⟩ | ⟨a, rest, -, -, h⟩⟩⟩ := step_next h
  case inl => exact (State.cfg_of_surroundings (issue_surroundings h)).trans rfl
  · exact State.cfg_of_surroundings (engine_surroundings h)
  · rfl
  · exact (State.cfg_of_surroundings (enginePrimitive_surroundings h)).trans rfl
  · exact (hostAccess_cfg h).trans rfl
  · exact State.cfg_of_surroundings (engine_surroundings h)
  · exact (hostAccess_cfg h).trans rfl

/-- Settles O43: every operation keeps all the surroundings, every step the configuration. -/
theorem nothingWritesTheConfiguration : Obligations.NothingWritesTheConfiguration :=
  ⟨fun _ s t h => (State.surroundings_eq_iff s t).mp (exec_surroundings h), fun _ _ => step_cfg⟩

/-! ### An entry, primitive by primitive -/

/-- The state in which a routine's next primitive is performed: loaded at phase 0, as it is after. -/
def Routine.entered (r : Routine) (s : State) : State := if s.ph = 0#6 then r.begin s else s

theorem Routine.entered_of_start {r : Routine} {s : State} (h : s.ph = 0#6) :
    r.entered s = r.begin s := if_pos h

theorem Routine.entered_of_inside {r : Routine} {s : State} (h : s.ph ≠ 0#6) : r.entered s = s :=
  if_neg h

/-- An entry's load writes `TXB` at most. -/
theorem Routine.entered_eq_txb {s : State} {r : Routine} (hu : s.upc.toNat < 26)
    (hr : (entryAt s.upc).bind routineOf = some r) : ∃ b, r.entered s = { s with txb := b } := by
  by_cases h0 : s.ph = 0#6
  · rw [Routine.entered_of_start h0]
    obtain ⟨b, -, hb⟩ | ⟨-, hb⟩ := begin_cases hu hr s
    · exact ⟨_, hb⟩
    · exact ⟨s.txb, hb⟩
  · exact ⟨s.txb, Routine.entered_of_inside h0⟩

theorem Routine.runPrimitive_of_getElem? {r : Routine} {s : State} {m : Micro}
    (h : r.body[s.ph.toNat]? = some m) :
    r.runPrimitive s = andThen (perform m (r.entered s)) fun t =>
      .next (if s.ph.toNat + 1 = r.body.length then r.finish t else t) := by
  simp only [Routine.runPrimitive, h, Routine.entered]

theorem Routine.runPrimitive_of_body_nil {r : Routine} {s : State} (hb : r.body = [])
    (h0 : s.ph = 0#6) : r.runPrimitive s = .next (r.finish (r.begin s)) := by
  simp [Routine.runPrimitive, hb, h0]

theorem enginePrimitive_of_entry {s : State} {r : Routine} (hb : s.busy = true)
    (hr : (entryAt s.upc).bind routineOf = some r) : enginePrimitive s = r.runPrimitive s := by
  simp [enginePrimitive, hb, runPrimitive, hr]

theorem andThen_congr {r : Result} {f g : State → Result} (h : ∀ t, r = .next t → f t = g t) :
    andThen r f = andThen r g := by
  cases r with
  | next t => exact h t rfl
  | fault e => rfl
  | refused e => rfl

/-- The first of the primitives that are left is the one at phase `n`. -/
theorem getElem?_of_drop_eq_cons {body ms : List Micro} {m : Micro} {n : Nat}
    (h : body.drop n = m :: ms) : body[n]? = some m := by
  rw [← List.head?_drop, h, List.head?_cons]

theorem length_of_drop_eq_cons {body ms : List Micro} {m : Micro} {n : Nat}
    (h : body.drop n = m :: ms) : body.length = n + 1 + ms.length := by
  have hlen := congrArg List.length h
  rw [List.length_drop, List.length_cons] at hlen
  omega

/-- One primitive moves `ph` on and leaves the engine in the same entry. -/
theorem perform_entered_next {s t : State} {r : Routine} {m : Micro} (hu : s.upc.toNat < 26)
    (hr : (entryAt s.upc).bind routineOf = some r) (h : perform m (r.entered s) = .next t) :
    t.ph = s.ph + 1#6 ∧ t.upc = s.upc ∧ t.busy = s.busy := by
  obtain ⟨b, hb⟩ := Routine.entered_eq_txb hu hr
  rw [hb] at h
  have p := perform_next h
  exact ⟨p.ph, p.upc, p.busy⟩

theorem iterate_enginePrimitive_succ {s : State} {r : Routine} {m : Micro} (hb : s.busy = true)
    (hr : (entryAt s.upc).bind routineOf = some r) (hm : r.body[s.ph.toNat]? = some m) (n : Nat) :
    iterate enginePrimitive (n + 1) s = andThen (perform m (r.entered s)) fun t =>
      iterate enginePrimitive n (if s.ph.toNat + 1 = r.body.length then r.finish t else t) := by
  rw [iterate, enginePrimitive_of_entry hb hr, Routine.runPrimitive_of_getElem? hm, andThen_assoc]
  simp only [andThen_next]

/-- From any phase of an entry, as many smallest steps as primitives are left perform those primitives
and the control transfer, refusals included. -/
theorem iterate_enginePrimitive_eq_runAll {r : Routine} (hlen : r.body.length ≤ 50) (m : Micro)
    (ms : List Micro) (s : State) (hb : s.busy = true) (hu : s.upc.toNat < 26)
    (hr : (entryAt s.upc).bind routineOf = some r) (hleft : r.body.drop s.ph.toNat = m :: ms) :
    iterate enginePrimitive (m :: ms).length s =
      andThen (runAll (m :: ms) (r.entered s)) fun t => .next (r.finish t) := by
  induction ms generalizing m s with
  | nil =>
    have hm := getElem?_of_drop_eq_cons hleft
    have hlast : s.ph.toNat + 1 = r.body.length := (length_of_drop_eq_cons hleft).symm
    rw [List.length_cons, iterate_enginePrimitive_succ hb hr hm, runAll_cons, andThen_assoc]
    simp only [if_pos hlast]
    rfl
  | cons m' ms ih =>
    have hm := getElem?_of_drop_eq_cons hleft
    have hmore : s.ph.toNat + 1 < r.body.length := by
      rw [length_of_drop_eq_cons hleft, List.length_cons]; omega
    rw [List.length_cons, iterate_enginePrimitive_succ hb hr hm, runAll_cons, andThen_assoc]
    refine andThen_congr fun t ht => ?_
    obtain ⟨hph, hupc, hbusy⟩ := perform_entered_next hu hr ht
    have hpn : t.ph.toNat = s.ph.toNat + 1 := by rw [hph]; bv_omega
    have h0 : t.ph ≠ 0#6 := by bv_omega
    have hleft' : r.body.drop t.ph.toNat = m' :: ms := by
      rw [hpn, ← List.drop_drop, hleft, List.drop_one, List.tail_cons]
    rw [if_neg (Nat.ne_of_lt hmore), ih m' t (hbusy.trans hb) (hupc ▸ hu) (hupc ▸ hr) hleft',
      Routine.entered_of_inside h0]

/-- From its start, an entry's smallest steps give what its routine gives. -/
theorem iterate_enginePrimitive_eq_run {r : Routine} (hlen : r.body.length ≤ 50) {s : State}
    (hb : s.busy = true) (hu : s.upc.toNat < 26) (h0 : s.ph = 0#6)
    (hr : (entryAt s.upc).bind routineOf = some r) :
    iterate enginePrimitive (max 1 r.body.length) s = r.run s := by
  cases hbody : r.body with
  | nil =>
    have hone : iterate enginePrimitive 1 s = .next (r.finish (r.begin s)) := by
      rw [iterate, enginePrimitive_of_entry hb hr, Routine.runPrimitive_of_body_nil hbody h0]
      rfl
    have hrun : r.run s = .next (r.finish (r.begin s)) := by rw [Routine.run, hbody]; rfl
    exact hone.trans hrun.symm
  | cons m ms =>
    have hleft : r.body.drop s.ph.toNat = m :: ms := by rw [h0]; exact hbody
    have hmax : max 1 (m :: ms).length = (m :: ms).length := Nat.max_eq_right (Nat.succ_pos _)
    rw [hmax, iterate_enginePrimitive_eq_runAll hlen m ms s hb hu hr hleft,
      Routine.entered_of_start h0, Routine.run, hbody]

/-- Settles O40: an entry is a routine of at most 50 primitives, so that `ph` counts them without
wrapping; past the microprogram both granularities refuse alike. -/
theorem primitiveStepsMakeTheEntry : Obligations.PrimitiveStepsMakeTheEntry := by
  intro s hb h0
  obtain hu | hu := Nat.lt_or_ge s.upc.toNat 26
  · obtain ⟨i, r, hi, hri, hexec, hbody, hlen⟩ := entry_of_lt hu
    have hr : (entryAt s.upc).bind routineOf = some r := by rw [hi]; exact hri
    rw [hbody, iterate_enginePrimitive_eq_run hlen hb hu h0 hr, runEntry_of_entryAt hi, hexec]
  · have hn := entryAt_of_ge hu
    have hbody : entryBody s.upc = [] := by simp [entryBody, hn]
    have hstep : enginePrimitive s = .refused .noMicroprogramEntry := by
      simp [enginePrimitive, hb, runPrimitive, hn]
    have hentry : runEntry s = .refused .noMicroprogramEntry := by simp [runEntry, hn]
    rw [hbody, hentry, List.length_nil, Nat.max_zero, iterate, hstep, andThen_refused]

end Sys2Proof.Machine
end

section
/-!
PROOFS. The family of `10_state.md`: the layout of `STATUS`, the reset table, and the invariant of every
run. A whole entry is its primitives one after another (`primitiveStepsMakeTheEntry`), so that only the
engine's smallest step has to be shown to keep the invariant.
-/

namespace Sys2Proof.Machine

/-! ### `STATUS` and reset -/

/-- `STATUS` as a function of the flags alone (R37). -/
def statusOf (busy done acq valid : Bool) (err : Err) : Byte :=
  BitVec.ofBool busy ++ BitVec.ofBool done ++ BitVec.ofBool acq ++ BitVec.ofBool valid
    ++ 0#1 ++ err.code

theorem State.status_eq_statusOf (s : State) :
    s.status = statusOf s.busy s.done s.acq s.valid s.err := rfl

/-- Settles O37: the five appended fields are read off one by one, `ERR` being the lowest three bits. -/
theorem statusLayout : Obligations.StatusLayout := by
  intro s
  have hcode : s.status.extractLsb' 0 3 = s.err.code :=
    BitVec.extractLsb'_append_eq_right
  refine ⟨?busy, ?done, ?acq, ?valid, ?zero, ?err⟩
  case err => rw [hcode]; cases s.err <;> rfl
  all_goals simp only [State.status, BitVec.getLsbD_append]; simp

/-- Settles O41: a closed table, evaluated. -/
theorem resetIsTheResetTable : Obligations.ResetIsTheResetTable := by
  unfold Obligations.ResetIsTheResetTable
  decide

/-- Whatever the configuration, the bookkeeping and the environment, reset makes an idle state. -/
theorem inv_rst {s : State} (h : s.slot = none) : Inv s.rst where
  slot := h
  status := by show statusOf false false false false .none ∈ visibleStatus; decide
  bitn := by show 7#3 = bitnOf 0#6; decide
  noReading _ := rfl
  reading h := nomatch h
  idle _ := ⟨rfl, rfl, rfl, rfl, rfl⟩
  running h := nomatch h

/-- Settles O44: the reset state is what the reset input makes of itself. -/
theorem invariantHoldsAtReset : Obligations.InvariantHoldsAtReset := inv_rst (s := State.reset) rfl

/-! ### A transaction in progress -/

/-- The flags and the result register of a running transaction: `STATUS` is `0xA0` and `RD` is zero. -/
structure Transacting (s : State) : Prop where
  slot : s.slot = none
  busy : s.busy = true
  done : s.done = false
  acq : s.acq = true
  valid : s.valid = false
  err : s.err = .none
  rd : s.rd = .zero

theorem Transacting.status {s : State} (h : Transacting s) : s.status = 0xA0#8 := by
  rw [State.status_eq_statusOf, h.busy, h.done, h.acq, h.valid, h.err]; decide

/-- The only visible `STATUS` with bit 7 set is `0xA0`. -/
theorem status_of_busy {s : State} (hv : s.status ∈ visibleStatus) (hb : s.busy = true) :
    s.status = 0xA0#8 := by
  have only : ∀ x ∈ visibleStatus, x.getLsbD 7 = true → x = 0xA0#8 := by decide
  exact only _ hv ((statusLayout s).1.trans hb)

/-- The flags of a busy state of the invariant are read off `0xA0`. -/
theorem Inv.transacting {s : State} (h : Inv s) (hb : s.busy = true) : Transacting s := by
  obtain ⟨-, hdone, hacq, hvalid, -, herr⟩ := statusLayout s
  rw [status_of_busy h.status hb] at hdone hacq hvalid herr
  have hvalid : s.valid = false := by simpa using hvalid.symm
  refine ⟨h.slot, hb, by simpa using hdone.symm, by simpa using hacq.symm, hvalid, ?_,
    h.noReading hvalid⟩
  cases he : s.err with
  | none => rfl
  | _ => rw [he] at herr; revert herr; decide

theorem Transacting.inv {s : State} (h : Transacting s) (hn : s.bitn = bitnOf s.ph)
    (hr : Running s) : Inv s where
  slot := h.slot
  status := by rw [h.status]; decide
  bitn := hn
  noReading _ := h.rd
  reading hv := by rw [h.valid] at hv; cases hv
  idle hb := by rw [h.busy] at hb; cases hb
  running _ := hr

theorem Performed.transacting {m : Micro} {s t : State} (p : Performed m s t) (h : Transacting s) :
    Transacting t where
  slot := p.slot.trans h.slot
  busy := p.busy.trans h.busy
  done := p.done.trans h.done
  acq := p.acq.trans h.acq
  valid := p.valid.trans h.valid
  err := p.err.trans h.err
  rd := p.rd.trans h.rd

/-- `END(e)` of a transaction whose lines are released leaves an idle state: with an error and no
Reading, or with an accepted Reading and no error. -/
theorem inv_endTransaction {s : State} {e : Err} (hslot : s.slot = none) (hacq : s.acq = true)
    (hscl : s.scl = .released) (hsda : s.sda = .released)
    (hres : s.valid = false ∧ s.rd = .zero ∧
        (e = .busBusy ∨ e = .ackTimeout ∨ e = .checksumMismatch) ∨
      s.valid = true ∧ s.rd.accepted = true ∧ e = .none) : Inv (s.endTransaction e) where
  slot := hslot
  status := by
    rw [State.status_eq_statusOf]
    simp only [State.endTransaction_busy, State.endTransaction_done, State.endTransaction_acq,
      State.endTransaction_valid, State.endTransaction_err, hacq]
    obtain ⟨hv, -, rfl | rfl | rfl⟩ | ⟨hv, -, rfl⟩ := hres <;> rw [hv] <;> decide
  bitn := rfl
  noReading hv := by
    obtain ⟨-, hrd, -⟩ | ⟨hvalid, -, -⟩ := hres
    · exact hrd
    · cases hv.symm.trans hvalid
  reading hv := by
    obtain ⟨hvalid, -, -⟩ | ⟨-, hrd, -⟩ := hres
    · cases hv.symm.trans hvalid
    · exact hrd
  idle _ := ⟨hscl, hsda, rfl, rfl, rfl⟩
  running h := nomatch h

/-! ### The lines at the end of an entry (R186) -/

/-- The cells with which the entry at `u` can begin. -/
def cellsAt (u : BitVec 5) : List (Cell × Cell) := (entryCells[u.toNat]?).getD []

/-- The entry whose cells the last primitive of the entry at `u` leaves: the next one, and entry 0,
which begins with released lines, after the two entries that always end the transaction. -/
def following (u : BitVec 5) : BitVec 5 := if u = 21#5 ∨ u = 25#5 then 0#5 else u + 1#5

theorem following_of_ne {u : BitVec 5} (h21 : u ≠ 21#5) (h25 : u ≠ 25#5) : following u = u + 1#5 :=
  if_neg (not_or.mpr ⟨h21, h25⟩)

theorem onCells_wbitBody (txb : Byte) (n : BitVec 3) (v w : Level) :
    (wbitBody n).foldl (Micro.onCells txb) (.out v, .out w) = (.out true, .out (extractBit txb n)) := rfl

/-- A byte sent drives both lines, the clock high and the data at the byte's last bit. -/
theorem onCells_wbyteBody (txb : Byte) (c : Cell × Cell) :
    wbyteBody.foldl (Micro.onCells txb) c = (.out true, .out (extractBit txb 0#3)) := by
  have hout : [Micro.setDir .scl .output, .setDir .sda .output].foldl (Micro.onCells txb) c =
      (.out c.1.lat, .out c.2.lat) := rfl
  simp only [wbyteBody, List.foldl_append, hout, bitOrder, List.flatMap_cons, List.flatMap_nil,
    onCells_wbitBody, List.foldl_nil]

theorem onCells_rbitBody (txb : Byte) (k : Fin 5) (n : BitVec 3) (v : Level) (d : Cell) :
    (rbitBody k n).foldl (Micro.onCells txb) (.out v, d) = (.out true, d) := rfl

/-- A byte received leaves the clock high and the data line released, its latch as it was. -/
theorem onCells_rbyteBody (txb : Byte) (k : Fin 5) (v : Level) (d : Cell) :
    (rbyteBody k).foldl (Micro.onCells txb) (.out v, d) = (.out true, .inp d.lat) := by
  have hrel : [Micro.setLvl .scl false, .setDir .sda .input].foldl (Micro.onCells txb) (.out v, d) =
      (.out false, .inp d.lat) := rfl
  simp only [rbyteBody, List.foldl_append, hrel, bitOrder, List.flatMap_cons, List.flatMap_nil,
    onCells_rbitBody, List.foldl_nil]

/-- Of the bytes an entry sends, `ADDR_R` alone ends in a 1 (R9, R10). -/
theorem extractBit_constByte_zero (p : Params) (b : Sel) :
    extractBit (p.constByte b) 0#3 = decide (b = .addrR) := by
  cases b with
  | addrW => simp [extractBit, Params.constByte, Params.addrW]
  | regPtr => simp [extractBit, Params.constByte, regPtr]
  | addrR => simp [extractBit, Params.constByte, Params.addrR]

/-- From the cells `c`, the primitives of the entry at `u` leave cells with which the entry that follows
can begin. -/
def Leads (txb : Byte) (u : BitVec 5) (c : Cell × Cell) : Prop :=
  (entryBody u).foldl (Micro.onCells txb) c ∈ cellsAt (following u)

/-- An entry that sends a byte, by the byte's last bit. -/
theorem leads_of_wbyte {p : Params} {txb : Byte} {u : BitVec 5} {b : Sel} (c : Cell × Cell)
    (hbody : entryBody u = wbyteBody) (htxb : txb = p.constByte b)
    (hnext : cellsAt (following u) = [(.out true, .out (decide (b = .addrR)))]) : Leads txb u c := by
  rw [Leads, hbody, onCells_wbyteBody, htxb, extractBit_constByte_zero, hnext]
  exact List.mem_singleton_self _

/-- An entry that receives a byte: it begins under a driven clock. -/
theorem leads_of_rbyte (txb : Byte) {u : BitVec 5} {k : Fin 5} {v w : Level} {dir : Dir}
    (hbody : entryBody u = rbyteBody k) (hcells : cellsAt u = [(.out v, ⟨dir, w⟩)])
    (hnext : cellsAt (following u) = [(.out true, .inp w)]) : ∀ c ∈ cellsAt u, Leads txb u c := by
  rw [hcells, List.forall_mem_singleton, Leads, hbody, onCells_rbyteBody, hnext]
  exact List.mem_singleton_self _

/-- R186, entry by entry: three entries send a byte, five receive one, entry 22 has two cases, every
other entry is evaluated from the cells it begins with. -/
theorem leads_following {p : Params} {txb : Byte} {u : BitVec 5} (hu : u.toNat < 26)
    (hsent : ∀ b, entrySel u = some b → txb = p.constByte b) : ∀ c ∈ cellsAt u, Leads txb u c := by
  have all : ∀ n < 26, (∀ b, entrySel (BitVec.ofNat 5 n) = some b → txb = p.constByte b) →
      ∀ c ∈ cellsAt (BitVec.ofNat 5 n), Leads txb (BitVec.ofNat 5 n) c := by
    intro n hn hb
    match n, hn with
    | 2, _ => exact fun c _ => leads_of_wbyte c rfl (hb .addrW rfl) rfl
    | 4, _ => exact fun c _ => leads_of_wbyte c rfl (hb .regPtr rfl) rfl
    | 7, _ => exact fun c _ => leads_of_wbyte c rfl (hb .addrR rfl) rfl
    | 22, _ => exact List.forall_mem_cons.mpr ⟨.head _, List.forall_mem_singleton.mpr (.head _)⟩
    | 9, _ | 11, _ | 13, _ | 15, _ | 17, _ => exact leads_of_rbyte txb rfl rfl rfl
    | 0, _ | 1, _ | 3, _ | 5, _ | 6, _ | 8, _ | 10, _ | 12, _ | 14, _ | 16, _ | 18, _ | 19, _ | 20, _
    | 21, _ | 23, _ | 24, _ | 25, _ => exact List.forall_mem_singleton.mpr (.head _)
    | n + 26, hn => omega
  simpa using all u.toNat hu (by simpa using hsent)

/-! ### Inside an entry -/

/-- The engine has performed `n` primitives of the entry at `upc`; control has not been transferred. -/
structure Along (n : Nat) (s : State) : Prop where
  entry : s.upc.toNat < 26
  lines : ∃ c ∈ cellsAt s.upc, ((entryBody s.upc).take n).foldl (Micro.onCells s.txb) c = (s.scl, s.sda)
  sent : ∀ b, entrySel s.upc = some b → s.txb = s.cfg.constByte b
  pending : s.errPend = if 22 ≤ s.upc.toNat then .ackTimeout else .none

/-- What the entry loads before its first primitive is what `TXB` holds from there on. -/
theorem Running.along {s : State} {r : Routine} {b : Byte} (h : Running s)
    (hr : (entryAt s.upc).bind routineOf = some r) (hb : r.entered s = { s with txb := b }) :
    Along s.ph.toNat { s with txb := b } := by
  by_cases h0 : s.ph = 0#6
  · obtain ⟨c, hc, hlines⟩ := h.lines
    refine ⟨h.entry, ⟨c, hc, ?_⟩, fun sel hsel => ?_, h.pending⟩
    · rw [h0] at hlines ⊢; exact hlines
    · rw [Routine.entered_of_start h0] at hb
      obtain ⟨sel', hsel', hbeg⟩ | ⟨hnone, -⟩ := begin_cases h.entry hr s
      · obtain rfl : sel' = sel := Option.some.inj (hsel'.symm.trans hsel)
        exact congrArg State.txb (hb.symm.trans hbeg)
      · cases hnone.symm.trans hsel
  · have htxb : s.txb = b := congrArg State.txb ((Routine.entered_of_inside h0).symm.trans hb)
    subst htxb
    exact ⟨h.entry, h.lines, h.loaded h0, h.pending⟩

theorem Along.succ {n : Nat} {s t : State} {m : Micro} (h : Along n s)
    (hm : (entryBody s.upc)[n]? = some m) (p : Performed m s t) : Along (n + 1) t := by
  obtain ⟨c, hc, hlines⟩ := h.lines
  refine ⟨p.upc ▸ h.entry, ⟨c, p.upc ▸ hc, ?_⟩, fun b hb => ?_, ?_⟩
  · rw [p.upc, p.txb, p.cells, List.take_add_one, hm, List.foldl_append, hlines]; rfl
  · rw [p.txb, p.cfg]; exact h.sent b (p.upc ▸ hb)
  · rw [p.errPend, p.upc]; exact h.pending

theorem Along.running {n : Nat} {s : State} (h : Along n s) (hph : s.ph.toNat = n)
    (hn : n < (entryBody s.upc).length) : Running s where
  entry := h.entry
  phase := by omega
  lines := hph ▸ h.lines
  loaded _ := h.sent
  pending := h.pending

theorem Along.cells_of_end {s : State} (h : Along (entryBody s.upc).length s) :
    (s.scl, s.sda) ∈ cellsAt (following s.upc) := by
  obtain ⟨c, hc, hlines⟩ := h.lines
  rw [← hlines, List.take_length]
  exact leads_following h.entry h.sent c hc

/-! ### The control transfer keeps the invariant -/

/-- The first primitive of an entry, its cells being among those it can begin with. -/
theorem running_of_start {s : State} (hu : s.upc.toNat < 26) (h0 : s.ph = 0#6)
    (hc : (s.scl, s.sda) ∈ cellsAt s.upc)
    (hp : s.errPend = if 22 ≤ s.upc.toNat then .ackTimeout else .none) : Running s where
  entry := hu
  phase := by rw [h0]; exact lt_max_of_lt_left Nat.one_pos
  lines := ⟨_, hc, by rw [h0]; rfl⟩
  loaded hn := absurd h0 hn
  pending := hp

theorem released_of_cells {s : State} (h : (s.scl, s.sda) ∈ [(Cell.released, Cell.released)]) :
    s.scl = .released ∧ s.sda = .released :=
  Prod.mk.inj (List.mem_singleton.mp h)

/-- Whatever transfer follows the last primitive of an entry, it keeps the invariant: the branch to the
abort tail finds there the cells of the acknowledge wait, an end of the transaction the released lines. -/
theorem Transfer.inv {s t : State} (h : Transfer s.upc s t) (hs : Transacting s) (hu : s.upc.toNat < 26)
    (hc : (s.scl, s.sda) ∈ cellsAt (following s.upc))
    (hp : s.errPend = if 22 ≤ s.upc.toNat then .ackTimeout else .none) : Inv t := by
  cases h with
  | sequential ht h21 h25 h0 =>
    subst ht
    rw [following_of_ne h21 h25] at hc
    refine Transacting.inv { hs with } rfl (running_of_start ?_ rfl hc ?_)
    · rw [State.nextEntry_upc]; bv_omega
    · have hsame : 22 ≤ (s.upc + 1#5).toNat ↔ 22 ≤ s.upc.toNat := by bv_omega
      simp only [State.nextEntry_upc, State.nextEntry_errPend, hsame, hp]
  | idle ht h0 hidle =>
    subst ht
    rw [h0] at hc hp
    exact Transacting.inv { hs with } rfl (running_of_start (show (1#5).toNat < 26 by decide) rfl hc hp)
  | noAck ht hwait hsamp =>
    subst ht
    have hc22 : (s.scl, s.sda) ∈ cellsAt 22#5 := by
      have sub : ∀ u ∈ [3#5, 5#5, 8#5], ∀ c ∈ cellsAt (following u), c ∈ cellsAt 22#5 := by decide
      exact sub _ (by simpa using hwait) _ hc
    exact Transacting.inv { hs with } rfl
      (running_of_start (show (22#5).toNat < 26 by decide) rfl hc22 rfl)
  | busBusy ht h0 hidle =>
    subst ht
    rw [h0] at hc
    obtain ⟨hscl, hsda⟩ := released_of_cells hc
    exact inv_endTransaction hs.slot hs.acq hscl hsda (.inl ⟨hs.valid, hs.rd, .inl rfl⟩)
  | accepted ht h21 hok =>
    subst ht
    rw [h21] at hc
    obtain ⟨hscl, hsda⟩ := released_of_cells hc
    exact inv_endTransaction hs.slot hs.acq hscl hsda (.inr ⟨rfl, hok, rfl⟩)
  | rejected ht h21 hbad =>
    subst ht
    rw [h21] at hc
    obtain ⟨hscl, hsda⟩ := released_of_cells hc
    exact inv_endTransaction hs.slot hs.acq hscl hsda (.inl ⟨hs.valid, hs.rd, .inr (.inr rfl)⟩)
  | failed ht h25 =>
    subst ht
    rw [h25] at hc hp
    obtain ⟨hscl, hsda⟩ := released_of_cells hc
    exact inv_endTransaction hs.slot hs.acq hscl hsda (.inl ⟨hs.valid, hs.rd, .inr (.inl hp)⟩)

/-- After the last primitive of its entry, the routine's control transfer keeps the invariant. -/
theorem Along.inv_finish {s : State} {r : Routine} (h : Along (entryBody s.upc).length s)
    (hs : Transacting s) (hr : (entryAt s.upc).bind routineOf = some r) : Inv (r.finish s) :=
  (finish_transfer h.entry hr s).inv hs h.entry h.cells_of_end h.pending

/-! ### The engine keeps the invariant -/

theorem entryBody_of_routine {u : BitVec 5} {r : Routine} (hr : (entryAt u).bind routineOf = some r) :
    entryBody u = r.body := by
  simp only [entryBody, hr]

theorem length_entryBody_le {u : BitVec 5} (hu : u.toNat < 26) : (entryBody u).length ≤ 50 := by
  obtain ⟨i, r, -, -, -, hbody, hlen⟩ := entry_of_lt hu
  rw [hbody]; exact hlen

/-- The engine's smallest step: inside an entry the lines follow the primitive, after its last primitive
the control transfer decides. -/
theorem enginePrimitive_inv {s t : State} (hi : Inv s) (h : enginePrimitive s = .next t) : Inv t := by
  cases hb : s.busy with
  | false => rw [enginePrimitive_of_idle hb] at h; cases h; exact hi
  | true =>
    have hs := hi.transacting hb
    obtain ⟨r, b, hr, hu, hload, hcase⟩ := enginePrimitive_next hb h
    have hbody := entryBody_of_routine hr
    have ha := (hi.running hb).along hr hload
    have hsb : Transacting { s with txb := b } := { hs with }
    obtain ⟨m, u, hm, p, rfl⟩ | ⟨h0, hnil, rfl⟩ := hcase
    · have hau := ha.succ (hbody ▸ hm) p
      have hupc : u.upc = s.upc := p.upc
      have hlt : s.ph.toNat < (entryBody s.upc).length := hbody ▸ (List.getElem?_eq_some_iff.mp hm).1
      split
      · next hlast =>
        rw [← hbody, ← hupc] at hlast
        exact Along.inv_finish (hlast ▸ hau) (p.transacting hsb) (hupc ▸ hr)
      · next hmore =>
        have hph : u.ph.toNat = s.ph.toNat + 1 := by
          have hlen := length_entryBody_le hu
          have hadd : u.ph = s.ph + 1#6 := p.ph
          rw [hadd]; bv_omega
        refine (p.transacting hsb).inv (p.bitn.trans (congrArg bitnOf p.ph.symm))
          (hau.running hph ?_)
        rw [← hbody] at hmore
        rw [hupc]; omega
    · have hend : (entryBody s.upc).length = s.ph.toNat := by rw [hbody, hnil, h0]; rfl
      exact Along.inv_finish (hend ▸ ha) hsb hr

/-- What a step keeps, any number of them keeps. -/
theorem iterate_keeps {P : State → Prop} {f : State → Result}
    (hf : ∀ s t, P s → f s = .next t → P t) {n : Nat} {s t : State} (hs : P s)
    (h : iterate f n s = .next t) : P t := by
  induction n generalizing s with
  | zero => cases h; exact hs
  | succ n ih =>
    obtain ⟨u, hu, h⟩ := andThen_eq_next h
    exact ih (hf s u hs hu) h

/-- What the engine does between two boundaries is a number of its smallest steps. -/
theorem engine_eq_iterate (s : State) : ∃ n, engine s = iterate enginePrimitive n s := by
  by_cases hb : s.busy = true
  · by_cases h0 : s.ph = 0#6
    · exact ⟨_, by rw [engine, if_pos hb, if_pos h0, primitiveStepsMakeTheEntry s hb h0]⟩
    · refine ⟨1, ?_⟩
      rw [engine, if_pos hb, if_neg h0, iterate, enginePrimitive, if_pos hb]
      cases runPrimitive s <;> rfl
  · exact ⟨0, by rw [engine, if_neg hb]; rfl⟩

theorem engine_inv {s t : State} (hi : Inv s) (h : engine s = .next t) : Inv t := by
  obtain ⟨n, hn⟩ := engine_eq_iterate s
  exact iterate_keeps (fun _ _ => enginePrimitive_inv) hi (hn ▸ h)

/-! ### The host keeps the invariant -/

/-- An idle state in which a command has been accepted (R216) and has still to be executed. -/
structure Accepted (s : State) : Prop where
  slot : s.slot = none
  bitn : s.bitn = bitnOf s.ph
  busy : s.busy = false
  done : s.done = false
  valid : s.valid = false
  err : s.err = .none
  rd : s.rd = .zero
  idle : Idle s

theorem Inv.accept {s : State} (h : Inv s) (hb : s.busy = false) : Accepted s.accept :=
  have hi := h.idle hb
  ⟨h.slot, h.bitn, hb, rfl, rfl, rfl, rfl, ⟨hi.scl, hi.sda, hi.upc, hi.ph, hi.errPend⟩⟩

/-- Completing the command makes `STATUS` a visible value, NotAcquired only while `ACQ = 0`. -/
theorem Accepted.inv_complete {s : State} {e : Err} (h : Accepted s)
    (he : e = .none ∨ e = .unsupportedOperation ∨ e = .illegalCommand ∨
      e = .notAcquired ∧ s.acq = false) : Inv (s.complete e) where
  slot := h.slot
  status := by
    rw [State.status_eq_statusOf]
    simp only [State.complete_busy, State.complete_done, State.complete_acq, State.complete_valid,
      State.complete_err, h.busy, h.valid]
    obtain rfl | rfl | rfl | ⟨rfl, ha⟩ := he
    case inr.inr.inr => rw [ha]; decide
    all_goals cases s.acq <;> decide
  bitn := h.bitn
  noReading _ := h.rd
  reading hv := by cases hv.symm.trans h.valid
  idle _ := ⟨h.idle.scl, h.idle.sda, h.idle.upc, h.idle.ph, h.idle.errPend⟩
  running hb := by cases hb.symm.trans h.busy

/-- `READ` starts the transaction at entry 0, the lines being released. -/
theorem Accepted.inv_beginTransaction {s : State} (h : Accepted s) (ha : s.acq = true) :
    Inv s.beginTransaction :=
  Transacting.inv ⟨h.slot, rfl, h.done, ha, h.valid, h.err, h.rd⟩ rfl
    (running_of_start (show (0#5).toNat < 26 by decide) rfl
      (by
        rw [State.beginTransaction_scl, State.beginTransaction_sda, h.idle.scl, h.idle.sda]
        exact .head _)
      rfl)

/-- A byte written to `CMD`: dropped in a transaction, one of six effects on an accepted state else. -/
theorem hostCommand_inv {v : Byte} {s t : State} (hi : Inv s) (h : hostCommand v s = .next t) :
    Inv t := by
  cases hb : s.busy with
  | true => rw [hostCommand_of_busy hb] at h; cases h; exact hi
  | false =>
    obtain ⟨u, hu, hcase⟩ := hostCommand_of_idle hb v
    rw [hu] at h
    cases h
    have ha := hi.accept hb
    obtain rfl | rfl | ⟨hacq, rfl⟩ | ⟨hacq, rfl⟩ | rfl | rfl := hcase
    case inl =>
      refine Accepted.inv_complete ?_ (.inl rfl)
      exact { ha with idle := ⟨rfl, rfl, ha.idle.upc, ha.idle.ph, ha.idle.errPend⟩ }
    case inr.inl =>
      have hscl : s.scl.turn .input = .released := by rw [(hi.idle hb).scl]; rfl
      have hsda : s.sda.turn .input = .released := by rw [(hi.idle hb).sda]; rfl
      refine Accepted.inv_complete ?_ (.inl rfl)
      exact { ha with idle := ⟨hscl, hsda, ha.idle.upc, ha.idle.ph, ha.idle.errPend⟩ }
    case inr.inr.inl => exact ha.inv_beginTransaction hacq
    case inr.inr.inr.inl => exact ha.inv_complete (.inr (.inr (.inr ⟨rfl, hacq⟩)))
    case inr.inr.inr.inr.inl => exact ha.inv_complete (.inr (.inl rfl))
    case inr.inr.inr.inr.inr => exact ha.inv_complete (.inr (.inr (.inl rfl)))

/-- The invariant does not speak of the schedule or of what the host was told. -/
theorem Inv.with_host {s : State} (h : Inv s) (is : List Input) (rs : List Byte) :
    Inv { s with inputs := is, replies := rs } where
  slot := h.slot
  status := h.status
  bitn := h.bitn
  noReading := h.noReading
  reading := h.reading
  idle hb := { h.idle hb with }
  running hb := { h.running hb with }

theorem hostAccess_inv {a : Access} {s t : State} (hi : Inv s) (h : hostAccess a s = .next t) :
    Inv t := by
  obtain ⟨n, -, -, rfl⟩ | ⟨n, v, -, -, -, rfl⟩ | ⟨v, -, h⟩ := hostAccess_next h
  · exact hi.with_host _ _
  · exact hi
  · exact hostCommand_inv hi h

/-! ### Every step and every run -/

/-- The slot being empty, a step is the engine's, or serves the head of the schedule: the reset input,
one primitive, or a host access. -/
theorem Inv.step_next {s t : State} (hi : Inv s) (h : step s = .next t) :
    engine s = .next t ∨ ∃ rest, t = State.rst { s with inputs := rest } ∨
      enginePrimitive { s with inputs := rest } = .next t ∨
      ∃ a, hostAccess a { s with inputs := rest } = .next t := by
  obtain ⟨-, ⟨w, hw, -⟩ | ⟨-, ⟨-, h⟩ | ⟨rest, -, h⟩ | ⟨rest, -, h⟩ | ⟨a, rest, -, h⟩ |
    ⟨a, rest, -, -, h⟩ | ⟨a, rest, -, -, h⟩⟩⟩ := Machine.step_next h
  case inl => cases hi.slot.symm.trans hw
  · exact .inl h
  · exact .inr ⟨rest, .inl h⟩
  · exact .inr ⟨rest, .inr (.inl h)⟩
  · exact .inr ⟨rest, .inr (.inr ⟨a, h⟩)⟩
  · exact .inl h
  · exact .inr ⟨rest, .inr (.inr ⟨a, h⟩)⟩

/-- Settles O45: the engine, the reset input, one primitive and a host access each keep the invariant. -/
theorem everyStepKeepsTheInvariant : Obligations.EveryStepKeepsTheInvariant := by
  intro s t hi h
  obtain h | ⟨rest, rfl | h | ⟨a, h⟩⟩ := hi.step_next h
  · exact engine_inv hi h
  · exact inv_rst hi.slot
  · exact enginePrimitive_inv (hi.with_host _ _) h
  · exact hostAccess_inv (hi.with_host _ _) h

/-- A run of the machine is its step iterated. -/
theorem core_run_eq_iterate (n : Nat) (s : State) : Host.Core.run core n s = iterate step n s := by
  induction n generalizing s with
  | zero => rfl
  | succ n ih =>
    cases hs : step s with
    | next u =>
      have hc : core.step s = .next u := hs
      simp only [Host.Core.run, iterate, hc, hs, andThen_next]
      exact ih u
    | fault e => nomatch e
    | refused e =>
      have hc : core.step s = .refused e := hs
      simp only [Host.Core.run, iterate, hc, hs, andThen_refused]
      rfl

theorem run_inv {n : Nat} {s t : State} (hi : Inv s) (h : Host.Core.run core n s = .next t) : Inv t :=
  iterate_keeps everyStepKeepsTheInvariant hi ((core_run_eq_iterate n s).symm.trans h)

/-- Inside a transaction `upc` and `ph` are those of R29 and R30. -/
theorem Running.bounds {s : State} (h : Running s) : s.upc.toNat ≤ 25 ∧ s.ph.toNat ≤ 49 := by
  have hlen := length_entryBody_le h.entry
  have hentry := h.entry
  have hphase := h.phase
  omega

/-- Settles O47: every state of a run meets the invariant, which says so of idle and busy states. -/
theorem everyRunIsIdleOrInATransaction : Obligations.EveryRunIsIdleOrInATransaction := by
  intro c as is n t h
  have hi : Inv t :=
    run_inv (inv_rst (s := { State.reset with cfg := c, answers := as, inputs := is }) rfl) h
  refine ⟨hi.status, fun hb => ?idle, fun hb => ?busy⟩
  case idle =>
    obtain ⟨hscl, hsda, hupc, hph, hpend⟩ := hi.idle hb
    exact ⟨hscl, hsda, hupc, hph, hpend⟩
  case busy =>
    have hs := hi.transacting hb
    exact ⟨hs.status, hs.rd, (hi.running hb).bounds⟩

/-- Settles O51: in every state of the invariant `bitn` is the function of `ph`. -/
theorem bitIndexFollowsThePhase : Obligations.BitIndexFollowsThePhase := by
  intro s hi _ _ _
  have hlt : 7 - (s.ph.toNat - 2) / 6 < 2 ^ 3 := by omega
  rw [hi.bitn, bitnOf, BitVec.toNat_ofNat, Nat.mod_eq_of_lt hlt]

/-! ### The result registers -/

/-- All that a step can do to the result registers. -/
inductive ResultStep (s t : State) : Prop where
  | kept (hrd : t.rd = s.rd)
  | cleared (hidle : s.busy = false) (hrd : t.rd = .zero) (hvalid : t.valid = false)
  | accepted (hbusy : s.busy = true) (hupc : s.upc = 21#5) (hrd : t.rd = s.rx) (hvalid : t.valid = true)
      (hend : t.busy = false) (hsum : s.rx.accepted = true)

/-- Taking an item off the schedule is nothing to the result registers. -/
theorem ResultStep.of_inputs {s t : State} {is : List Input}
    (h : ResultStep { s with inputs := is } t) : ResultStep s t := by
  cases h with
  | kept hrd => exact .kept hrd
  | cleared hidle hrd hvalid => exact .cleared hidle hrd hvalid
  | accepted hbusy hupc hrd hvalid hend hsum => exact .accepted hbusy hupc hrd hvalid hend hsum

/-- Of the control transfers only `VALIDATE`'s acceptance writes `RD`, and entry 21 has no primitive
that could have changed `RX` before it. -/
theorem finish_resultStep {s u : State} {r : Routine} (hb : s.busy = true) (hu : s.upc.toNat < 26)
    (hr : (entryAt s.upc).bind routineOf = some r) (hrd : u.rd = s.rd)
    (hrx : r.body = [] → u.rx = s.rx) : ResultStep s (r.finish u) := by
  cases finish_transfer hu hr u with
  | accepted ht h21 hsum =>
    have hnil : r.body = [] := by rw [← entryBody_of_routine hr, h21]; rfl
    rw [ht]
    exact .accepted hb h21 (hrx hnil) rfl rfl (hrx hnil ▸ hsum)
  | sequential ht | idle ht | busBusy ht | noAck ht | rejected ht | failed ht =>
    rw [ht]; exact .kept hrd

theorem enginePrimitive_resultStep {s t : State} (h : enginePrimitive s = .next t) :
    ResultStep s t := by
  cases hb : s.busy with
  | false => rw [enginePrimitive_of_idle hb] at h; cases h; exact .kept rfl
  | true =>
    obtain ⟨r, b, hr, hu, -, ⟨m, u, hm, p, rfl⟩ | ⟨-, -, rfl⟩⟩ := enginePrimitive_next hb h
    · have hbody : r.body ≠ [] := by rintro hnil; rw [hnil] at hm; cases hm
      split
      · exact finish_resultStep hb hu hr p.rd (absurd · hbody)
      · exact .kept p.rd
    · exact finish_resultStep hb hu hr rfl fun _ => rfl

theorem runEntry_resultStep {s t : State} (hb : s.busy = true) (hu : s.upc.toNat < 26)
    (h0 : s.ph = 0#6) (h : runEntry s = .next t) : ResultStep s t := by
  obtain ⟨i, r, hi, hri, hexec, -, -⟩ := entry_of_lt hu
  have hr : (entryAt s.upc).bind routineOf = some r := by rw [hi]; exact hri
  rw [runEntry_of_entryAt hi, hexec] at h
  obtain ⟨u, hrun, rfl⟩ := Routine.run_next h
  obtain ⟨b, hload⟩ := Routine.entered_eq_txb hu hr
  rw [← Routine.entered_of_start h0, hload] at hrun
  refine finish_resultStep hb hu hr (runAll_next hrun).rd fun hnil => ?_
  rw [hnil, runAll_nil] at hrun
  cases hrun; rfl

theorem engine_resultStep {s t : State} (hi : Inv s) (h : engine s = .next t) : ResultStep s t := by
  cases hb : s.busy with
  | false => rw [engine_of_idle hb] at h; cases h; exact .kept rfl
  | true =>
    rw [engine, if_pos hb] at h
    split at h
    · next h0 => exact runEntry_resultStep hb (hi.running hb).entry h0 h
    · exact enginePrimitive_resultStep (by rw [enginePrimitive, if_pos hb]; exact h)

/-- Every effect of an accepted command leaves `RD` and `VALID` as the acceptance made them. -/
theorem hostCommand_resultStep {v : Byte} {s t : State} (h : hostCommand v s = .next t) :
    ResultStep s t := by
  cases hb : s.busy with
  | true => rw [hostCommand_of_busy hb] at h; cases h; exact .kept rfl
  | false =>
    obtain ⟨u, hu, hcase⟩ := hostCommand_of_idle hb v
    rw [hu] at h
    cases h
    obtain rfl | rfl | ⟨-, rfl⟩ | ⟨-, rfl⟩ | rfl | rfl := hcase <;> exact .cleared hb rfl rfl

theorem hostAccess_resultStep {a : Access} {s t : State} (h : hostAccess a s = .next t) :
    ResultStep s t := by
  obtain ⟨n, -, -, rfl⟩ | ⟨n, v, -, -, -, rfl⟩ | ⟨v, -, h⟩ := hostAccess_next h
  · exact .kept rfl
  · exact .kept rfl
  · exact hostCommand_resultStep h

/-- The reset input clears the result; in a transaction it finds it cleared. -/
theorem rst_resultStep {s : State} (hi : Inv s) : ResultStep s s.rst := by
  cases hb : s.busy with
  | true => exact .kept (hi.transacting hb).rd.symm
  | false => exact .cleared hb rfl rfl

theorem step_resultStep {s t : State} (hi : Inv s) (h : step s = .next t) : ResultStep s t := by
  obtain h | ⟨rest, rfl | h | ⟨a, h⟩⟩ := hi.step_next h
  · exact engine_resultStep hi h
  · exact (rst_resultStep (hi.with_host _ _)).of_inputs
  · exact (enginePrimitive_resultStep h).of_inputs
  · exact (hostAccess_resultStep h).of_inputs

/-- Settles O52: a step that does not keep `RD` clears it or accepts a Reading. -/
theorem resultChangesOnlyWholly : Obligations.ResultChangesOnlyWholly := by
  intro s t hi h hne
  cases step_resultStep hi h with
  | kept hrd => exact absurd hrd hne
  | cleared hidle hrd hvalid => exact .inl ⟨hidle, hrd, hvalid⟩
  | accepted hbusy hupc hrd hvalid hend hsum =>
    exact .inr ⟨hbusy, hupc, hrd, hvalid, hend, hsum⟩

end Sys2Proof.Machine
end

section
/-!
PROOFS. The family of `20_memory.md`: the host's window, what the host can do to a transaction in progress,
and that a transaction ends. An entry always goes on, because every sample finds its line released; what
follows its control transfer is nearer to the end of the transaction.
-/

namespace Sys2Proof.Machine

/-! ### The window (R61 to R64) -/

theorem hostAccess_read {a : Nat} (ha : a ≤ 7) (s : State) :
    hostAccess (.read a 1) s = .next { s with replies := s.replies ++ [s.window a] } :=
  if_pos ⟨ha, rfl⟩

theorem hostAccess_write_ignored {a : Nat} (h1 : 1 ≤ a) (h7 : a ≤ 7) (v : Byte) (s : State) :
    hostAccess (.write a 1 v) s = .next s := by
  have h0 : a ≠ 0 := Nat.ne_of_gt h1
  simp [hostAccess, h7, h0]

theorem hostAccess_of_not_exists {a : Access} (h : a.exists = false) (s : State) :
    hostAccess a s = .refused .noSuchAccess := by
  cases a with
  | read n w =>
    have hno : ¬(n ≤ 7 ∧ w = 1) := by simpa [Access.exists] using h
    exact if_neg hno
  | write n w v =>
    have hno : ¬(n ≤ 7 ∧ w = 1) := by simpa [Access.exists] using h
    exact if_neg hno

/-- Settles O36: an offset from 8 up or another width makes an access that does not exist. -/
theorem windowAccessRules : Obligations.WindowAccessRules := by
  intro s
  refine ⟨fun a ha => ⟨s.window a, hostAccess_read ha s, ?_⟩,
    fun a v h1 h7 => hostAccess_write_ignored h1 h7 v s, fun a w v h => ?_⟩
  · interval_cases a <;> rfl
  · have hno : ¬(a ≤ 7 ∧ w = 1) := by omega
    have hread : (Access.read a w).exists = false := by simpa [Access.exists] using hno
    exact ⟨hostAccess_of_not_exists hread s,
      hostAccess_of_not_exists (a := .write a w v) hread s⟩

/-! ### The host during a transaction (R71, R226) -/

/-- `DATA0` to `DATA4` of a running transaction are the cleared result registers. -/
theorem Transacting.window {s : State} (h : Transacting s) (a : Nat) :
    s.window a = if a = 1 then 0xA0#8 else 0x00#8 := by
  simp [State.window, h.status, h.rd, FiveBytes.zero]

/-- An access during a transaction is a dropped write, or a read of a `STATUS` of `0xA0` and of zeros. -/
theorem Transacting.hostAccess_next {s t : State} {a : Access} (hs : Transacting s)
    (h : hostAccess a s = .next t) :
    (∃ n v, a = .write n 1 v ∧ t = s) ∨
    (∃ n, a = .read n 1 ∧
      t = { s with replies := s.replies ++ [if n = 1 then 0xA0#8 else 0x00#8] }) := by
  obtain ⟨n, -, rfl, rfl⟩ | ⟨n, v, -, -, rfl, rfl⟩ | ⟨v, rfl, hc⟩ := Machine.hostAccess_next h
  · exact .inr ⟨n, rfl, by rw [hs.window]⟩
  · exact .inl ⟨n, v, rfl, rfl⟩
  · rw [hostCommand_of_busy hs.busy] at hc
    cases hc
    exact .inl ⟨0, v, rfl, rfl⟩

/-- Settles O53: the step that serves the access takes it off the schedule, and the transaction goes on
with the flags it had. -/
theorem hostCannotDisturbATransaction : Obligations.HostCannotDisturbATransaction := by
  intro s t a rest hi hb hin h
  obtain ⟨hl, -⟩ := step_next h
  rw [step_of_boundary hl hi.slot, boundary_hostNow hin] at h
  have hs : Transacting { s with inputs := rest } := { hi.transacting hb with }
  exact hs.hostAccess_next h

/-! ### An entry goes on (R187) -/

theorem readyAll_append (txb : Byte) (a b : List Micro) (c : Cell × Cell) :
    readyAll txb (a ++ b) c ↔ readyAll txb a c ∧ readyAll txb b (a.foldl (Micro.onCells txb) c) := by
  induction a generalizing c with
  | nil => simp [readyAll]
  | cons m ms ih => simp [readyAll, ih, and_assoc]

/-- Primitives that take no sample go on whatever the lines are. -/
theorem readyAll_of_no_sample (txb : Byte) {ms : List Micro} (h : ∀ m ∈ ms, m.takes = 0)
    (c : Cell × Cell) : readyAll txb ms c := by
  induction ms generalizing c with
  | nil => trivial
  | cons m ms ih =>
    obtain ⟨hm, hms⟩ := List.forall_mem_cons.mp h
    refine ⟨?_, ih hms _⟩
    cases m with
    | setDir | setLvl | sendBit | delay => trivial
    | getLvl | keepFirst | takeBit => cases hm

/-- The slots of a byte received sample a released data line. -/
theorem readyAll_rbitSlots (txb : Byte) (k : Fin 5) (ns : List (BitVec 3)) (v w : Level) :
    readyAll txb (ns.flatMap (rbitBody k)) (.out v, .inp w) := by
  induction ns generalizing v with
  | nil => trivial
  | cons n ns ih =>
    rw [List.flatMap_cons, readyAll_append, onCells_rbitBody]
    exact ⟨⟨trivial, trivial, trivial, trivial, rfl, trivial, trivial⟩, ih true⟩

theorem readyAll_rbyteBody (txb : Byte) (k : Fin 5) (v : Level) (d : Cell) :
    readyAll txb (rbyteBody k) (.out v, d) :=
  ⟨trivial, trivial, readyAll_rbitSlots txb k bitOrder false d.lat⟩

/-- From the cells it begins with, every entry finds the line of each of its samples released. -/
theorem readyAll_entryBody (txb : Byte) {u : BitVec 5} (hu : u.toNat < 26) :
    ∀ c ∈ cellsAt u, readyAll txb (entryBody u) c := by
  have all : ∀ n < 26, ∀ c ∈ cellsAt (BitVec.ofNat 5 n),
      readyAll txb (entryBody (BitVec.ofNat 5 n)) c := by
    intro n hn
    match n, hn with
    | 0, _ => exact List.forall_mem_singleton.mpr ⟨rfl, rfl, trivial⟩
    | 3, _ | 5, _ | 8, _ =>
      exact List.forall_mem_singleton.mpr
        ⟨trivial, trivial, trivial, trivial, trivial, rfl, trivial, trivial⟩
    | 9, _ | 11, _ | 13, _ | 15, _ | 17, _ =>
      exact List.forall_mem_singleton.mpr (readyAll_rbyteBody txb _ true _)
    | 1, _ | 2, _ | 4, _ | 6, _ | 7, _ | 10, _ | 12, _ | 14, _ | 16, _ | 18, _ | 19, _ | 20, _ | 21, _
    | 22, _ | 23, _ | 24, _ | 25, _ => exact fun c _ => readyAll_of_no_sample txb (by decide) c
    | n + 26, hn => omega
  simpa using all u.toNat hu

theorem Running.cells_of_start {s : State} (h : Running s) (h0 : s.ph = 0#6) :
    (s.scl, s.sda) ∈ cellsAt s.upc := by
  obtain ⟨c, hc, hlines⟩ := h.lines
  rw [h0] at hlines
  exact hlines ▸ hc

/-- From its start an entry is performed whole: its load, all its primitives, its control transfer. -/
theorem engine_of_start {s : State} (hb : s.busy = true) (h : Running s) (h0 : s.ph = 0#6) :
    ∃ r, (entryAt s.upc).bind routineOf = some r ∧
      engine s = .next (r.finish (afterAll r.body (r.begin s))) := by
  obtain ⟨i, r, hi, hri, hexec, hbody, -⟩ := entry_of_lt h.entry
  have hr : (entryAt s.upc).bind routineOf = some r := by rw [hi]; exact hri
  obtain ⟨b, hload⟩ := Routine.entered_eq_txb h.entry hr
  rw [Routine.entered_of_start h0] at hload
  have hready : readyAll b r.body (s.scl, s.sda) :=
    hbody ▸ readyAll_entryBody b h.entry _ (h.cells_of_start h0)
  refine ⟨r, hr, ?_⟩
  rw [engine_of_entry hb h0 hi, hexec, Routine.run, hload, runAll_of_ready hready, andThen_next]

/-! ### A transaction ends (R73, R162) -/

/-- How many entries are left from the start of the entry at `u`, on the main line and in the abort
tail, if no error cuts them short. -/
def entriesLeft (u : BitVec 5) : Nat := if u.toNat < 22 then 22 - u.toNat else 26 - u.toNat

/-- The transaction has ended, or is at the start of an entry with at most `n` entries left. -/
def EndsWithin (n : Nat) (s : State) : Prop :=
  s.busy = false ∧ s.done = true ∨ s.busy = true ∧ s.ph = 0#6 ∧ entriesLeft s.upc ≤ n

/-- Every control transfer ends the transaction or brings it one entry nearer to its end. -/
theorem Transfer.endsWithin {u : BitVec 5} {s t : State} {n : Nat} (h : Transfer u s t)
    (hu : u.toNat < 26) (hsu : s.upc = u) (hb : s.busy = true) (hn : entriesLeft u ≤ n + 1) :
    EndsWithin n t := by
  cases h with
  | busBusy ht | accepted ht | rejected ht | failed ht => subst ht; exact .inl ⟨rfl, rfl⟩
  | sequential ht h21 h25 =>
    subst ht
    refine .inr ⟨hb, rfl, ?_⟩
    rw [State.nextEntry_upc, hsu]
    unfold entriesLeft at hn ⊢
    split at hn <;> split <;> bv_omega
  | idle ht h0 =>
    subst ht h0
    exact .inr ⟨hb, rfl, Nat.le_of_succ_le_succ hn⟩
  | noAck ht hwait =>
    subst ht
    have hfar : ∀ w ∈ [3#5, 5#5, 8#5], entriesLeft 22#5 + 1 ≤ entriesLeft w := by decide
    have hnear := hfar u (by simpa using hwait)
    exact .inr ⟨hb, rfl, Nat.le_of_succ_le_succ (hnear.trans hn)⟩

/-- What the engine does between two boundaries, with nothing scheduled. -/
theorem engine_endsWithin {n : Nat} {s : State} (hi : Inv s) (h : EndsWithin (n + 1) s) :
    ∃ t, engine s = .next t ∧ EndsWithin n t := by
  obtain ⟨hb, hd⟩ | ⟨hb, h0, hleft⟩ := h
  · exact ⟨s, engine_of_idle hb, .inl ⟨hb, hd⟩⟩
  · have hrun := hi.running hb
    obtain ⟨r, hr, hengine⟩ := engine_of_start hb hrun h0
    obtain ⟨b, hload⟩ := Routine.entered_eq_txb hrun.entry hr
    rw [Routine.entered_of_start h0] at hload
    refine ⟨_, hengine, ?_⟩
    rw [hload]
    exact (finish_transfer hrun.entry hr _).endsWithin hrun.entry rfl hb hleft

/-- Undisturbed, a transaction with at most `n` entries left has ended after `n` steps. -/
theorem iterate_step_ends {n : Nat} {s : State} (hi : Inv s) (hl : s.cfg.legal = true)
    (hin : s.inputs = []) (h : EndsWithin n s) :
    ∃ t, iterate step n s = .next t ∧ t.busy = false ∧ t.done = true := by
  induction n generalizing s with
  | zero =>
    obtain ⟨hb, hd⟩ | ⟨hb, -, hleft⟩ := h
    · exact ⟨s, rfl, hb, hd⟩
    · have hu := (hi.running hb).entry
      unfold entriesLeft at hleft
      split at hleft <;> omega
  | succ n ih =>
    obtain ⟨u, hu, hends⟩ := engine_endsWithin hi h
    obtain ⟨hcfg, hinputs, -, -⟩ := (State.surroundings_eq_iff s u).mp (engine_surroundings hu)
    obtain ⟨t, ht, hend⟩ := ih (engine_inv hi hu) (hcfg ▸ hl) (hinputs.trans hin) hends
    refine ⟨t, ?_, hend⟩
    rw [iterate, step_of_boundary hl hi.slot, boundary_nil hin, hu, andThen_next, ht]

/-- Settles O55: no entry has more than 22 entries left, entry 0 has as many. -/
theorem everyTransactionEnds : Obligations.EveryTransactionEnds := by
  intro s hi hl hb h0 hin
  have hleft : entriesLeft s.upc ≤ 22 := by unfold entriesLeft; split <;> omega
  rw [core_run_eq_iterate]
  exact iterate_step_ends hi hl hin (.inr ⟨hb, h0, hleft⟩)

end Sys2Proof.Machine
end

section
/-!
PROOFS. The family of `30_encoding.md`: which words are the encoding of an operation, both directions
of the round trip, and the refusal of the others.
-/

namespace Sys2Proof

/-! ### Bit fields -/

theorem bit_getLsbD {w : Nat} (x : BitVec w) (n : Nat) : bit (x.getLsbD n) = x.extractLsb' n 1 := by
  refine BitVec.eq_of_getLsbD_eq fun i hi => ?_
  obtain rfl : i = 0 := by omega
  simp [bit]

theorem getLsbD_zero_append_bit {m : Nat} (x : BitVec m) (b : Bool) :
    (x ++ bit b).getLsbD 0 = b := by
  rw [BitVec.getLsbD_append]
  simp [bit]

theorem getLsbD_one_append_bit {m : Nat} (x : BitVec m) (b : Bool) (y : BitVec 1) :
    (x ++ bit b ++ y).getLsbD 1 = b := by
  rw [BitVec.getLsbD_append, BitVec.getLsbD_append]
  simp [bit]

theorem extractLsb'_four_append {m : Nat} (x : BitVec m) (k : BitVec 3) (y : BitVec 1)
    (n : BitVec 3) :
    (x ++ k ++ y ++ n).extractLsb' 4 3 = k := by
  rw [BitVec.extractLsb'_append_eq_of_le (by decide), BitVec.extractLsb'_append_eq_of_le (by decide)]
  exact BitVec.extractLsb'_append_eq_right

/-- A field of bits that a mask leaves unused is 0 where no unused bit is set. -/
theorem extractLsb'_of_unused {arg used : Byte} {start len : Nat} (h : arg &&& ~~~used = 0#8)
    (hu : (~~~used).extractLsb' start len = BitVec.allOnes len) :
    arg.extractLsb' start len = 0#len := by
  have hfield := congrArg (BitVec.extractLsb' start len) h
  rwa [BitVec.extractLsb'_and, hu, BitVec.and_allOnes, BitVec.extractLsb'_zero] at hfield

/-! ### Lines, directions, words -/

@[simp] theorem lineOf_code (l : Line) : lineOf l.code = l := by cases l <;> rfl
@[simp] theorem dirOf_code (d : Dir) : dirOf d.code = d := by cases d <;> rfl
@[simp] theorem code_lineOf (b : Bool) : (lineOf b).code = b := by cases b <;> rfl
@[simp] theorem code_dirOf (b : Bool) : (dirOf b).code = b := by cases b <;> rfl

@[simp] theorem opOf_microWord (op arg : Byte) : opOf (microWord op arg) = op :=
  BitVec.extractLsb'_append_eq_left

@[simp] theorem argOf_microWord (op arg : Byte) : argOf (microWord op arg) = arg :=
  BitVec.extractLsb'_append_eq_right

theorem microWord_opOf_argOf (w : MicroWord) : microWord (opOf w) (argOf w) = w :=
  (BitVec.extractLsb'_append_extractLsb'_eq_extractLsb' rfl).trans BitVec.extractLsb'_eq_self

/-! ### Operand bytes

An operand byte without an unused bit is its fields with zeros between them (R94 to R99). -/

theorem operandByte_two_bits {arg : Byte} (h : arg &&& ~~~0x03#8 = 0#8) :
    0#6 ++ arg.extractLsb' 0 2 = arg := by
  rw [← extractLsb'_of_unused (start := 2) h rfl,
    BitVec.extractLsb'_append_extractLsb'_eq_extractLsb' (len₁ := 2) rfl]
  exact BitVec.extractLsb'_eq_self

theorem operandByte_three_bits {arg : Byte} (h : arg &&& ~~~0x07#8 = 0#8) :
    0#5 ++ arg.extractLsb' 0 3 = arg := by
  rw [← extractLsb'_of_unused (start := 3) h rfl,
    BitVec.extractLsb'_append_extractLsb'_eq_extractLsb' (len₁ := 3) rfl]
  exact BitVec.extractLsb'_eq_self

theorem append_two_flags (arg : Byte) :
    arg.extractLsb' 2 6 ++ bit (arg.getLsbD 1) ++ bit (arg.getLsbD 0) = arg := by
  rw [bit_getLsbD, bit_getLsbD,
    BitVec.extractLsb'_append_extractLsb'_eq_extractLsb' (start₁ := 1) (len₁ := 1) rfl,
    BitVec.extractLsb'_append_extractLsb'_eq_extractLsb' (start₁ := 0) (len₁ := 1) rfl]
  exact BitVec.extractLsb'_eq_self

theorem operandByte_two_flags {arg : Byte} (h : arg &&& ~~~0x03#8 = 0#8) :
    0#6 ++ bit (arg.getLsbD 1) ++ bit (arg.getLsbD 0) = arg := by
  rw [← extractLsb'_of_unused (start := 2) h rfl, append_two_flags]

theorem operandByte_upper_flag {arg : Byte} (h : arg &&& ~~~0x02#8 = 0#8) :
    0#6 ++ bit (arg.getLsbD 1) ++ 0#1 = arg := by
  rw [← extractLsb'_of_unused (start := 2) h rfl,
    ← extractLsb'_of_unused (start := 0) (len := 1) h rfl, ← bit_getLsbD, append_two_flags]

theorem operandByte_two_indices {arg : Byte} (h : arg &&& ~~~0x77#8 = 0#8) :
    0#1 ++ arg.extractLsb' 4 3 ++ 0#1 ++ arg.extractLsb' 0 3 = arg := by
  have h7 : arg.extractLsb' 7 1 = 0#1 := extractLsb'_of_unused h rfl
  have h3 : arg.extractLsb' 3 1 = 0#1 := extractLsb'_of_unused h rfl
  calc 0#1 ++ arg.extractLsb' 4 3 ++ 0#1 ++ arg.extractLsb' 0 3
    _ = arg.extractLsb' 7 1 ++ arg.extractLsb' 4 3 ++ arg.extractLsb' 3 1 ++ arg.extractLsb' 0 3 := by
      rw [h7, h3]
    _ = arg := by
      rw [BitVec.extractLsb'_append_extractLsb'_eq_extractLsb' (len₁ := 3) rfl,
        BitVec.extractLsb'_append_extractLsb'_eq_extractLsb' (len₁ := 1) rfl,
        BitVec.extractLsb'_append_extractLsb'_eq_extractLsb' (len₁ := 3) rfl]
      exact BitVec.extractLsb'_eq_self

/-! ### The table of microwords -/

/-- The opcode byte `op` is assigned (R95, R98, R99): the bits of the operand byte `arg` it uses, and
the operation they make. -/
inductive Assigned (op arg : Byte) : Byte → Instr → Prop where
  | setdir (h : op = 0x10#8) :
      Assigned op arg 0x03#8 (.setdir (lineOf (arg.getLsbD 1)) (dirOf (arg.getLsbD 0)))
  | setlvl (h : op = 0x11#8) :
      Assigned op arg 0x03#8 (.setlvl (lineOf (arg.getLsbD 1)) (arg.getLsbD 0))
  | getlvl (h : op = 0x12#8) : Assigned op arg 0x02#8 (.getlvl (lineOf (arg.getLsbD 1)))
  | delay (h : op = 0x13#8) : Assigned op arg 0x03#8 (.delay (arg.extractLsb' 0 2))
  | wbit (h : op = 0x20#8) : Assigned op arg 0x07#8 (.wbit (arg.extractLsb' 0 3))
  | wbyte (h : op = 0x21#8) : Assigned op arg 0x03#8 (.wbyte (arg.extractLsb' 0 2))
  | rbit (h : op = 0x22#8) :
      Assigned op arg 0x77#8 (.rbit (arg.extractLsb' 4 3) (arg.extractLsb' 0 3))
  | rbyte (h : op = 0x23#8) : Assigned op arg 0x07#8 (.rbyte (arg.extractLsb' 0 3))
  | idlechk (h : op = 0x30#8) : Assigned op arg 0x00#8 .idlechk
  | start (h : op = 0x31#8) : Assigned op arg 0x00#8 .start
  | ackw (h : op = 0x32#8) : Assigned op arg 0x00#8 .ackw
  | restart (h : op = 0x33#8) : Assigned op arg 0x00#8 .restart
  | sack (h : op = 0x34#8) : Assigned op arg 0x00#8 .sack
  | snak (h : op = 0x35#8) : Assigned op arg 0x00#8 .snak
  | stop (h : op = 0x36#8) : Assigned op arg 0x00#8 .stop
  | relln (h : op = 0x37#8) : Assigned op arg 0x00#8 .relln
  | validate (h : op = 0x38#8) : Assigned op arg 0x00#8 .validate
  | fail (h : op = 0x39#8) : Assigned op arg 0x00#8 .fail

theorem operand_eq_ok_iff {arg used : Byte} {i j : Instr} :
    operand arg used i = .ok j ↔ arg &&& ~~~used = 0#8 ∧ i.wf = true ∧ i = j := by
  unfold operand
  split
  · next hbits => simp [hbits]
  · next hbits =>
    split
    · next hwf => simp [not_not.mp hbits, hwf]
    · next hwf => simp [hwf]

theorem decodeMicro_of_assigned {w : MicroWord} {used : Byte} {i : Instr}
    (h : Assigned (opOf w) (argOf w) used i) : decodeMicro w = operand (argOf w) used i := by
  cases h <;> next hop => simp [decodeMicro, hop]

/-- `op` and `arg` make a word that is the operation `i`: assigned, no unused bit set, no operand
code reserved. -/
def LegalWord (op arg : Byte) (i : Instr) : Prop :=
  ∃ used, Assigned op arg used i ∧ arg &&& ~~~used = 0#8 ∧ i.wf = true

/-- One branch of the decoder: the word is legal if the branch answers, or if the branches after it
make it so. -/
theorem Assigned.legal_of_branch {op arg used : Byte} {i j : Instr} {c : Prop} [Decidable c]
    {others : Except DecodeError Instr} (ha : c → Assigned op arg used i)
    (h : (if c then operand arg used i else others) = .ok j)
    (hothers : others = .ok j → LegalWord op arg j) : LegalWord op arg j := by
  obtain ⟨hc, hi⟩ | ⟨-, hj⟩ := ite_eq_iff.mp h
  · obtain ⟨hbits, hwf, rfl⟩ := operand_eq_ok_iff.mp hi
    exact ⟨used, ha hc, hbits, hwf⟩
  · exact hothers hj

theorem legal_of_decodeMicro {w : MicroWord} {i : Instr} (h : decodeMicro w = .ok i) :
    LegalWord (opOf w) (argOf w) i := by
  unfold decodeMicro at h
  refine Assigned.legal_of_branch .setdir h fun h => ?_
  refine Assigned.legal_of_branch .setlvl h fun h => ?_
  refine Assigned.legal_of_branch .getlvl h fun h => ?_
  refine Assigned.legal_of_branch .delay h fun h => ?_
  refine Assigned.legal_of_branch .wbit h fun h => ?_
  refine Assigned.legal_of_branch .wbyte h fun h => ?_
  refine Assigned.legal_of_branch .rbit h fun h => ?_
  refine Assigned.legal_of_branch .rbyte h fun h => ?_
  refine Assigned.legal_of_branch .idlechk h fun h => ?_
  refine Assigned.legal_of_branch .start h fun h => ?_
  refine Assigned.legal_of_branch .ackw h fun h => ?_
  refine Assigned.legal_of_branch .restart h fun h => ?_
  refine Assigned.legal_of_branch .sack h fun h => ?_
  refine Assigned.legal_of_branch .snak h fun h => ?_
  refine Assigned.legal_of_branch .stop h fun h => ?_
  refine Assigned.legal_of_branch .relln h fun h => ?_
  refine Assigned.legal_of_branch .validate h fun h => ?_
  refine Assigned.legal_of_branch .fail h fun h => ?_
  cases h

/-- Decoding a microword, said once: it answers an operation on the legal words only. -/
theorem decodeMicro_eq_ok_iff {w : MicroWord} {i : Instr} :
    decodeMicro w = .ok i ↔ LegalWord (opOf w) (argOf w) i := by
  refine ⟨legal_of_decodeMicro, fun ⟨used, ha, hbits, hwf⟩ => ?_⟩
  rw [decodeMicro_of_assigned ha]
  exact operand_eq_ok_iff.mpr ⟨hbits, hwf, rfl⟩

/-! ### Encoding -/

theorem encode_of_legal {op arg : Byte} {i : Instr} (h : LegalWord op arg i) :
    encode i = .micro (microWord op arg) := by
  obtain ⟨used, ha, hbits, -⟩ := h
  cases ha with
  | setdir hop => rw [hop, encode, code_lineOf, code_dirOf, operandByte_two_flags hbits]
  | setlvl hop => rw [hop, encode, code_lineOf, operandByte_two_flags hbits]
  | getlvl hop => rw [hop, encode, code_lineOf, operandByte_upper_flag hbits]
  | delay hop => rw [hop, encode, operandByte_two_bits hbits]
  | wbit hop => rw [hop, encode, operandByte_three_bits hbits]
  | wbyte hop => rw [hop, encode, operandByte_two_bits hbits]
  | rbit hop => rw [hop, encode, operandByte_two_indices hbits]
  | rbyte hop => rw [hop, encode, operandByte_three_bits hbits]
  | idlechk hop | start hop | ackw hop | restart hop | sack hop | snak hop | stop hop | relln hop
  | validate hop | fail hop =>
    obtain rfl : arg = 0#8 := BitVec.and_allOnes.symm.trans hbits
    rw [hop, encode]

/-- Of an encoded word, the operand bits that its row of the opcode table fixes. -/
theorem operandByte_of_row {op arg : Byte} {mask val : MicroWord}
    (h : microWord op arg &&& mask = val) : arg &&& argOf mask = argOf val := by
  have harg := congrArg argOf h
  rwa [argOf, BitVec.extractLsb'_and, ← argOf, ← argOf, argOf_microWord] at harg

/-- An assigned word in its row of the opcode table is legal: the row fixes the unused bits to 0. -/
theorem Assigned.legal_microWord {op arg used : Byte} {i : Instr} {mask val : MicroWord}
    (ha : Assigned op arg used i) (hwf : i.wf = true) (hrow : microWord op arg &&& mask = val)
    (hmask : argOf mask = ~~~used) (hval : argOf val = 0#8) :
    LegalWord (opOf (microWord op arg)) (argOf (microWord op arg)) i := by
  rw [opOf_microWord, argOf_microWord]
  exact ⟨used, ha, by rw [← hmask, operandByte_of_row hrow, hval], hwf⟩

theorem legal_of_encode {i : Instr} {w : MicroWord} (hwf : i.wf = true) (h : encode i = .micro w) :
    LegalWord (opOf w) (argOf w) i := by
  cases i with
  | acquire | release | read | write => cases h
  | setdir l d =>
    cases h
    have ha := Assigned.setdir (arg := 0#6 ++ bit l.code ++ bit d.code) rfl
    rw [getLsbD_one_append_bit, getLsbD_zero_append_bit, lineOf_code, dirOf_code] at ha
    exact ha.legal_microWord hwf (Laws.RowMatch.setdir l d) rfl rfl
  | setlvl l v =>
    cases h
    have ha := Assigned.setlvl (arg := 0#6 ++ bit l.code ++ bit v) rfl
    rw [getLsbD_one_append_bit, getLsbD_zero_append_bit, lineOf_code] at ha
    exact ha.legal_microWord hwf (Laws.RowMatch.setlvl l v) rfl rfl
  | getlvl l =>
    cases h
    have ha := Assigned.getlvl (arg := 0#6 ++ bit l.code ++ 0#1) rfl
    rw [getLsbD_one_append_bit, lineOf_code] at ha
    exact ha.legal_microWord hwf (Laws.RowMatch.getlvl l) rfl rfl
  | delay c =>
    cases h
    have ha := Assigned.delay (arg := 0#6 ++ c) rfl
    rw [BitVec.extractLsb'_append_eq_right] at ha
    exact ha.legal_microWord hwf (Laws.RowMatch.delay c) rfl rfl
  | wbit n =>
    cases h
    have ha := Assigned.wbit (arg := 0#5 ++ n) rfl
    rw [BitVec.extractLsb'_append_eq_right] at ha
    exact ha.legal_microWord hwf (Laws.RowMatch.wbit n) rfl rfl
  | wbyte sel =>
    cases h
    have ha := Assigned.wbyte (arg := 0#6 ++ sel) rfl
    rw [BitVec.extractLsb'_append_eq_right] at ha
    exact ha.legal_microWord hwf (Laws.RowMatch.wbyte sel) rfl rfl
  | rbit k n =>
    cases h
    have ha := Assigned.rbit (arg := 0#1 ++ k ++ 0#1 ++ n) rfl
    rw [extractLsb'_four_append, BitVec.extractLsb'_append_eq_right] at ha
    exact ha.legal_microWord hwf (Laws.RowMatch.rbit k n) rfl rfl
  | rbyte k =>
    cases h
    have ha := Assigned.rbyte (arg := 0#5 ++ k) rfl
    rw [BitVec.extractLsb'_append_eq_right] at ha
    exact ha.legal_microWord hwf (Laws.RowMatch.rbyte k) rfl rfl
  | idlechk => cases h; exact ⟨_, .idlechk rfl, rfl, rfl⟩
  | start => cases h; exact ⟨_, .start rfl, rfl, rfl⟩
  | ackw => cases h; exact ⟨_, .ackw rfl, rfl, rfl⟩
  | restart => cases h; exact ⟨_, .restart rfl, rfl, rfl⟩
  | sack => cases h; exact ⟨_, .sack rfl, rfl, rfl⟩
  | snak => cases h; exact ⟨_, .snak rfl, rfl, rfl⟩
  | stop => cases h; exact ⟨_, .stop rfl, rfl, rfl⟩
  | relln => cases h; exact ⟨_, .relln rfl, rfl, rfl⟩
  | validate => cases h; exact ⟨_, .validate rfl, rfl, rfl⟩
  | fail => cases h; exact ⟨_, .fail rfl, rfl, rfl⟩

theorem decodeMicro_eq_ok_iff_encode {w : MicroWord} {i : Instr} :
    decodeMicro w = .ok i ↔ i.wf = true ∧ encode i = .micro w := by
  rw [decodeMicro_eq_ok_iff]
  constructor
  · intro h
    have hw := encode_of_legal h
    rw [microWord_opOf_argOf] at hw
    obtain ⟨-, -, -, hwf⟩ := h
    exact ⟨hwf, hw⟩
  · rintro ⟨hwf, hw⟩
    exact legal_of_encode hwf hw

theorem decodeHost_eq_ok_iff_encode {b : Byte} {i : Instr} :
    decodeHost b = .ok i ↔ i.wf = true ∧ encode i = .host b := by
  constructor
  · intro h
    unfold decodeHost at h
    split_ifs at h with hb hb hb hb <;> cases h <;> exact ⟨rfl, by rw [hb, encode]⟩
  · rintro ⟨-, hb⟩
    cases i with
    | acquire | release | read | write => cases hb; rfl
    | _ => cases hb

/-- Decoding and encoding are inverse to each other on the well-formed operations. -/
theorem decode_eq_ok_iff_encode {c : Code} {i : Instr} :
    decode c = .ok i ↔ i.wf = true ∧ encode i = c := by
  cases c with
  | host b => exact decodeHost_eq_ok_iff_encode
  | micro w => exact decodeMicro_eq_ok_iff_encode

/-- Settles O1, the direction of the equivalence that starts from the operation. -/
theorem decodeOfEncodeIsTheOperation : Obligations.DecodeOfEncodeIsTheOperation :=
  fun _ hwf => decode_eq_ok_iff_encode.mpr ⟨hwf, rfl⟩

/-- Settles O2, the direction of the equivalence that starts from the byte or the word. -/
theorem onlyItsEncodingDecodesToAnOperation : Obligations.OnlyItsEncodingDecodesToAnOperation :=
  fun _ _ h => decode_eq_ok_iff_encode.mp h

/-- Settles O3: each word is what the operation is encoded as, digit by digit. -/
theorem wordsOfTheTablesDecode : Obligations.WordsOfTheTablesDecode :=
  have decoded := decodeOfEncodeIsTheOperation
  ⟨decoded .read rfl, decoded (.setdir .sda .output) rfl, decoded (.setlvl .scl true) rfl,
   decoded (.getlvl .sda) rfl, decoded (.delay 2#2) rfl, decoded (.wbit 6#3) rfl,
   decoded (.wbyte 1#2) rfl, decoded (.rbit 2#3 3#3) rfl, decoded (.rbyte 4#3) rfl, decoded .stop rfl⟩

/-! ### Reserved words -/

theorem Assigned.operand_of_legal {op arg used : Byte} {i j : Instr} (ha : Assigned op arg used i)
    (h : LegalWord op arg j) : operand arg used i = .ok j := by
  have hw : decodeMicro (microWord op arg) = .ok j := decodeMicro_eq_ok_iff.mpr (by simpa using h)
  rwa [decodeMicro_of_assigned (by simpa using ha), argOf_microWord] at hw

theorem Assigned.unused_eq_zero {op arg used : Byte} {i j : Instr} (ha : Assigned op arg used i)
    (h : LegalWord op arg j) : arg &&& ~~~used = 0#8 := by
  obtain ⟨hbits, -, -⟩ := operand_eq_ok_iff.mp (ha.operand_of_legal h)
  exact hbits

theorem Assigned.wf_of_legal {op arg used : Byte} {i j : Instr} (ha : Assigned op arg used i)
    (h : LegalWord op arg j) : i.wf = true := by
  obtain ⟨-, hwf, -⟩ := operand_eq_ok_iff.mp (ha.operand_of_legal h)
  exact hwf

/-- The three ranges of the eighteen opcode bytes. -/
theorem Assigned.op_range {op arg used : Byte} {i : Instr} (h : Assigned op arg used i) :
    0x10 ≤ op.toNat ∧ op.toNat ≤ 0x13 ∨ 0x20 ≤ op.toNat ∧ op.toNat ≤ 0x23 ∨
      0x30 ≤ op.toNat ∧ op.toNat ≤ 0x39 := by
  cases h <;> next hop => rw [hop]; decide

/-- The operations of the last range use no operand bit. -/
theorem Assigned.used_eq_zero {op arg used : Byte} {i : Instr} (h : Assigned op arg used i)
    (hop : 0x30 ≤ op.toNat) : used = 0#8 := by
  cases h with
  | setdir h | setlvl h | getlvl h | delay h | wbit h | wbyte h | rbit h | rbyte h =>
    rw [h] at hop
    exact absurd hop (by decide)
  | _ => rfl

theorem LegalWord.op_range {op arg : Byte} {i : Instr} (h : LegalWord op arg i) :
    0x10 ≤ op.toNat ∧ op.toNat ≤ 0x13 ∨ 0x20 ≤ op.toNat ∧ op.toNat ≤ 0x23 ∨
      0x30 ≤ op.toNat ∧ op.toNat ≤ 0x39 := by
  obtain ⟨_, ha, -, -⟩ := h
  exact ha.op_range

theorem LegalWord.arg_eq_zero {op arg : Byte} {i : Instr} (h : LegalWord op arg i)
    (hop : 0x30 ≤ op.toNat) : arg = 0#8 := by
  obtain ⟨_, ha, hbits, -⟩ := h
  rw [ha.used_eq_zero hop] at hbits
  exact BitVec.and_allOnes.symm.trans hbits

end Sys2Proof

namespace Sys2Proof.Machine

theorem issue_of_not_legal {op arg : Byte} (h : ∀ i, ¬ LegalWord op arg i) (s : State) :
    issue (microWord op arg) s = .refused .reservedMicroword := by
  unfold issue
  split
  · next i hi => exact absurd (decodeMicro_eq_ok_iff.mp hi) (by simpa using h i)
  · rfl

/-- Settles O5, clause by clause: a legal word of that opcode byte has what the clause denies. -/
theorem reservedMicrowordIsRefused : Obligations.ReservedMicrowordIsRefused := by
  intro s op arg hl hs hreserved
  rw [step_of_slot hl hs]
  refine issue_of_not_legal (fun i h => ?_) _
  obtain hop | ⟨rfl | rfl, hbits⟩ | ⟨rfl, hbits⟩ | ⟨rfl | rfl, hbits | hcode⟩ | ⟨rfl, hbits⟩ |
    ⟨rfl, hbits | hindex⟩ | ⟨rfl, hbits | hindex⟩ | ⟨hop, harg⟩ := hreserved
  · have hrange := h.op_range
    omega
  · exact hbits ((Assigned.setdir rfl).unused_eq_zero h)
  · exact hbits ((Assigned.setlvl rfl).unused_eq_zero h)
  · exact hbits ((Assigned.getlvl rfl).unused_eq_zero h)
  · exact hbits ((Assigned.delay rfl).unused_eq_zero h)
  · exact of_decide_eq_true ((Assigned.delay rfl).wf_of_legal h) hcode
  · exact hbits ((Assigned.wbyte rfl).unused_eq_zero h)
  · exact of_decide_eq_true ((Assigned.wbyte rfl).wf_of_legal h) hcode
  · exact hbits ((Assigned.wbit rfl).unused_eq_zero h)
  · exact hbits ((Assigned.rbit rfl).unused_eq_zero h)
  · exact hindex.not_ge (of_decide_eq_true ((Assigned.rbit rfl).wf_of_legal h))
  · exact hbits ((Assigned.rbyte rfl).unused_eq_zero h)
  · exact hindex.not_ge (of_decide_eq_true ((Assigned.rbyte rfl).wf_of_legal h))
  · exact harg (h.arg_eq_zero hop)

end Sys2Proof.Machine
end

section
/-!
PROOFS. The family of `40_line_and_timing_primitives.md`: each of the four primitives as one equation
between whole states.
-/

namespace Sys2Proof.Machine

/-! ### `SETDIR` (R121) -/

theorem exec_setdir (l : Line) (d : Dir) (s : State) :
    exec (.setdir l d) s = .next (s.setDir l d) := rfl

theorem State.setDir_eq (s : State) (l : Line) (d : Dir) :
    s.setDir l d = { s with
      scl := if l = .scl then s.scl.turn d else s.scl
      sda := if l = .sda then s.sda.turn d else s.sda
      tr := s.tr ++ [⟨s.now, .dir l d⟩]
      ph := s.ph + 1#6
      bitn := bitnOf (s.ph + 1#6) } := by
  cases l <;> rfl

theorem State.cell_setDir (s : State) (l : Line) (d : Dir) :
    (s.setDir l d).cell l = (s.cell l).turn d := by
  cases l <;> rfl

/-- R128 of a line just turned. -/
theorem Cell.drives_turn (c : Cell) (d : Dir) :
    (c.turn d).drives = if d = .output then some c.lat else none := by
  cases d <;> rfl

/-- Settles O10: the line's cell is turned, which keeps its latch. -/
theorem setdirTurnsOneLine : Obligations.SetdirTurnsOneLine := by
  intro l d s
  refine ⟨_, _, exec_setdir l d s, s.setDir_eq l d, ?pad⟩
  case pad => rw [State.cell_setDir, Cell.drives_turn]

/-! ### `SETLVL` (R122, R123) -/

theorem exec_setlvl (l : Line) (v : Level) (s : State) :
    exec (.setlvl l v) s = .next (s.setLvl l v) := rfl

theorem State.setLvl_eq (s : State) (l : Line) (v : Level) :
    s.setLvl l v = { s with
      scl := if l = .scl then s.scl.drive v else s.scl
      sda := if l = .sda then s.sda.drive v else s.sda
      tr := s.tr ++ [⟨s.now, .lvl l v⟩]
      ph := s.ph + 1#6
      bitn := bitnOf (s.ph + 1#6) } := by
  cases l <;> rfl

/-- The two branches of R122 and R123 as one condition on the direction. -/
theorem Cell.drive_eq_ite (c : Cell) (v : Level) :
    c.drive v = if c.dir = .output then ⟨.output, v⟩ else c := by
  obtain ⟨dir, lat⟩ := c
  cases dir <;> rfl

/-- Settles O11: the line's cell is driven, which tests its direction. -/
theorem setlvlWritesTheLatchOfADrivenLine : Obligations.SetlvlWritesTheLatchOfADrivenLine := by
  intro l v s
  refine ⟨bitnOf (s.ph + 1#6), ?_⟩
  rw [exec_setlvl, State.setLvl_eq]
  simp only [Cell.drive_eq_ite, ite_and]

/-! ### `GETLVL` (R124) -/

theorem exec_getlvl (l : Line) (s : State) : exec (.getlvl l) s = s.getLvl l := rfl

/-- Settles O12, one law of `GETLVL` for each direction of the line. -/
theorem getlvlSamplesAReleasedLine : Obligations.GetlvlSamplesAReleasedLine := by
  intro l s
  rw [exec_getlvl]
  constructor
  · intro released
    exact ⟨_, State.getLvl_of_input released⟩
  · intro driven
    exact State.getLvl_of_output driven

/-! ### `DELAY` (R125, R97) -/

theorem durOf_code (d : Dur) : durOf d.code = some d := by
  cases d <;> rfl

theorem exec_delay_code (d : Dur) (s : State) : exec (.delay d.code) s = .next (s.delay d) := by
  simp only [exec, execDelay, durOf_code]

theorem exec_delay_of_reserved {c : BitVec 2} (h : durOf c = none) (s : State) :
    exec (.delay c) s = .refused .reservedMicroword := by
  simp only [exec, execDelay, h]

theorem State.delay_eq (s : State) (d : Dur) :
    s.delay d = { s with
      now := s.now + s.cfg.us d
      tr := s.tr ++ [⟨s.now, .dly (s.cfg.us d)⟩]
      ph := s.ph + 1#6
      bitn := bitnOf (s.ph + 1#6) } := rfl

/-- Settles O13: codes 0 to 2 are those of the three durations, code 3 is no duration's. -/
theorem delayAdvancesTimeOnly : Obligations.DelayAdvancesTimeOnly := by
  intro s
  constructor
  · intro c us hc
    obtain ⟨d, rfl, rfl⟩ : ∃ d : Dur, c = d.code ∧ us = s.cfg.us d := by
      obtain ⟨rfl, rfl⟩ | ⟨rfl, rfl⟩ | ⟨rfl, rfl⟩ := hc
      · exact ⟨.q, rfl, rfl⟩
      · exact ⟨.h, rfl, rfl⟩
      · exact ⟨.f, rfl, rfl⟩
    exact ⟨_, by rw [exec_delay_code, State.delay_eq]⟩
  · exact exec_delay_of_reserved rfl s

end Sys2Proof.Machine
end

section
/-!
PROOFS. The family of `41_bit_byte_transfer.md`: the write and the read slot, the bytes made of eight of
them, and what a receiver of a written byte reads. Each operation is the closed form of its list of
primitives; the bytes are compared bit by bit.
-/

namespace Sys2Proof.Machine

/-! ### Lists of primitives without a sample -/

theorem takesOf_of_no_sample {ms : List Micro} (h : ∀ m ∈ ms, m.takes = 0) : takesOf ms = 0 := by
  induction ms with
  | nil => rfl
  | cons m ms ih =>
    obtain ⟨hm, hms⟩ := List.forall_mem_cons.mp h
    rw [takesOf, hm, ih hms]

theorem rxAfter_of_no_sample {ms : List Micro} (h : ∀ m ∈ ms, m.takes = 0) (a : Nat → Level)
    (r : FiveBytes) : rxAfter a ms r = r := by
  induction ms generalizing a with
  | nil => rfl
  | cons m ms ih =>
    obtain ⟨hm, hms⟩ := List.forall_mem_cons.mp h
    cases m with
    | setDir | setLvl | sendBit | delay => exact ih hms _
    | getLvl | keepFirst | takeBit => cases hm

theorem sampAfter_of_no_sample {ms : List Micro} (h : ∀ m ∈ ms, m.takes = 0) (a : Nat → Level)
    (v : Level) : sampAfter a ms v = v := by
  induction ms generalizing a with
  | nil => rfl
  | cons m ms ih =>
    obtain ⟨hm, hms⟩ := List.forall_mem_cons.mp h
    rw [sampAfter, hm, if_neg Nat.zero_ne_one, ih hms]

theorem samp0After_of_no_sample {ms : List Micro} (h : ∀ m ∈ ms, m.takes = 0) (a : Nat → Level)
    (v : Level) : samp0After a ms v = v := by
  induction ms generalizing a with
  | nil => rfl
  | cons m ms ih =>
    obtain ⟨hm, hms⟩ := List.forall_mem_cons.mp h
    cases m with
    | setDir | setLvl | sendBit | delay => exact ih hms _
    | getLvl | keepFirst | takeBit => cases hm

/-- Primitives that take no sample go on in every state; they change the lines, the time, the trace and
the phase, and nothing else. -/
theorem runAll_of_no_sample {ms : List Micro} (h : ∀ m ∈ ms, m.takes = 0) (s : State) :
    runAll ms s = .next { s with
      scl := (ms.foldl (Micro.onCells s.txb) (s.scl, s.sda)).1
      sda := (ms.foldl (Micro.onCells s.txb) (s.scl, s.sda)).2
      ph := s.ph + BitVec.ofNat 6 ms.length
      bitn := if ms = [] then s.bitn else bitnOf (s.ph + BitVec.ofNat 6 ms.length)
      now := s.now + elapsed (actsOf s.cfg s.txb s.level ms)
      tr := s.tr ++ stamped s.now (actsOf s.cfg s.txb s.level ms) } := by
  rw [runAll_of_ready (readyAll_of_no_sample s.txb h _), afterAll, takesOf_of_no_sample h,
    rxAfter_of_no_sample h, sampAfter_of_no_sample h, samp0After_of_no_sample h]
  rfl

/-- A list of pieces of equal length in time. -/
theorem elapsed_flatMap {α : Type} {f : α → List Act} {n : Nat} {l : List α}
    (h : ∀ x ∈ l, elapsed (f x) = n) : elapsed (l.flatMap f) = l.length * n := by
  induction l with
  | nil => simp [elapsed]
  | cons x xs ih =>
    obtain ⟨hx, hxs⟩ := List.forall_mem_cons.mp h
    rw [List.flatMap_cons, elapsed_append, hx, ih hxs, List.length_cons, Nat.succ_mul, Nat.add_comm]

/-! ### The write slot (R141) -/

theorem exec_wbit (n : BitVec 3) (s : State) : exec (.wbit n) s = runAll (wbitBody n) s := rfl

theorem wbitBody_no_sample (n : BitVec 3) : ∀ m ∈ wbitBody n, m.takes = 0 := by
  simp [wbitBody, Micro.takes]

theorem onCells_wbitBody_drive (txb : Byte) (n : BitVec 3) (c : Cell × Cell) :
    (wbitBody n).foldl (Micro.onCells txb) c = (c.1.drive true, c.2.drive (extractBit txb n)) := by
  simp [wbitBody, Micro.onCells]

theorem elapsed_wbitActs (p : Params) (v : Level) :
    elapsed (wbitActs p v) = p.us .q + p.us .q + p.us .h := by
  simp [wbitActs, elapsed, Nat.add_assoc]

/-- Settles O14: the six primitives take no sample. -/
theorem wbitDrivesOneBitOfTxb : Obligations.WbitDrivesOneBitOfTxb := by
  intro n s
  have hacts : actsOf s.cfg s.txb s.level (wbitBody n) = wbitActs s.cfg (s.txb.getLsbD n.toNat) := rfl
  refine ⟨bitnOf (s.ph + 6#6), ?_⟩
  rw [exec_wbit, runAll_of_no_sample (wbitBody_no_sample n), onCells_wbitBody_drive, hacts,
    elapsed_wbitActs]
  rfl

/-! ### The byte sent (R143) -/

theorem exec_wbyte {c : BitVec 2} {b : Sel} (h : selOf c = some b) (s : State) :
    exec (.wbyte c) s = (wbyteRoutine b).run s := by
  simp only [exec, execWbyte, h]

theorem exec_wbyte_of_reserved {c : BitVec 2} (h : selOf c = none) (s : State) :
    exec (.wbyte c) s = .refused .reservedMicroword := by
  simp only [exec, execWbyte, h]

theorem wbyteBody_no_sample : ∀ m ∈ wbyteBody, m.takes = 0 := by decide

/-- Both sides are the same fifty actions, bit 7 first. -/
theorem actsOf_wbyteBody (p : Params) (txb : Byte) (a : Nat → Level) :
    actsOf p txb a wbyteBody = wbyteActs p txb := rfl

theorem elapsed_wbyteActs (p : Params) (b : Byte) :
    elapsed (wbyteActs p b) = 8 * (p.us .q + p.us .q + p.us .h) := by
  rw [wbyteActs, elapsed_append, elapsed_flatMap fun _ _ => elapsed_wbitActs p _]
  simp [elapsed]

/-- Settles O15: fifty primitives without a sample, between the load and the advance. -/
theorem wbyteSendsTheSelectedByte : Obligations.WbyteSendsTheSelectedByte := by
  intro s
  refine ⟨fun c b hc => ?_, exec_wbyte_of_reserved rfl s⟩
  obtain ⟨sel, hsel, rfl⟩ : ∃ sel, selOf c = some sel ∧ s.cfg.constByte sel = b := by
    obtain ⟨rfl, rfl⟩ | ⟨rfl, rfl⟩ | ⟨rfl, rfl⟩ := hc
    · exact ⟨.addrW, rfl, rfl⟩
    · exact ⟨.regPtr, rfl, rfl⟩
    · exact ⟨.addrR, rfl, rfl⟩
  refine ⟨bitnOf 0#6, ?_⟩
  rw [exec_wbyte hsel, Routine.run, wbyteRoutine, runAll_of_no_sample wbyteBody_no_sample,
    onCells_wbyteBody, actsOf_wbyteBody, elapsed_wbyteActs]
  rfl

/-! ### The read slot (R144) -/

theorem rxIndex_ofNat (i : Fin 5) : rxIndex (BitVec.ofNat 3 i) = some i := by
  fin_cases i <;> rfl

theorem rxIndex_of_reserved {k : BitVec 3} (h : 4 < k.toNat) : rxIndex k = none :=
  dif_neg (by omega)

theorem exec_rbit (i : Fin 5) (n : BitVec 3) (s : State) :
    exec (.rbit (BitVec.ofNat 3 i) n) s = runAll (rbitBody i n) s := by
  simp only [exec, execRbit, rxIndex_ofNat]

theorem exec_rbit_of_reserved {k : BitVec 3} (h : 4 < k.toNat) (n : BitVec 3) (s : State) :
    exec (.rbit k n) s = .refused .reservedMicroword := by
  simp only [exec, execRbit, rxIndex_of_reserved h]

theorem onCells_rbitBody_drive (txb : Byte) (k : Fin 5) (n : BitVec 3) (c : Cell × Cell) :
    (rbitBody k n).foldl (Micro.onCells txb) c = (c.1.drive true, c.2) := by
  simp [rbitBody, Micro.onCells]

/-- The slot's one sample is of the data line, which the slot does not turn. -/
theorem readyAll_rbitBody (txb : Byte) (k : Fin 5) (n : BitVec 3) {c : Cell × Cell}
    (h : c.2.dir = .input) : readyAll txb (rbitBody k n) c :=
  ⟨trivial, trivial, trivial, trivial, h, trivial, trivial⟩

theorem elapsed_rbitActs (p : Params) (v : Level) :
    elapsed (rbitActs p v) = p.us .h + p.us .q + p.us .q := by
  simp [rbitActs, elapsed, Nat.add_assoc]

theorem runAll_rbitBody_of_driven (k : Fin 5) (n : BitVec 3) {s : State} (h : s.sda.dir = .output) :
    runAll (rbitBody k n) s = .refused .getlvlOfDrivenLine := by
  have before : ∀ m ∈ (rbitBody k n).take 4, m.takes = 0 := by simp [rbitBody, Micro.takes]
  have split : rbitBody k n = (rbitBody k n).take 4 ++ [.takeBit k n, .delay .q] := rfl
  obtain ⟨t, ht⟩ : ∃ t, runAll ((rbitBody k n).take 4) s = .next t := ⟨_, runAll_of_no_sample before s⟩
  have hsda : t.sda = s.sda := congrArg Prod.snd (runAll_next ht).cells
  have driven : (t.cell .sda).dir = .output := by rw [State.cell_sda, hsda, h]
  rw [split, runAll_append, ht, andThen_next, runAll_cons, perform, State.getLvl_of_output driven]
  rfl

/-- Settles O16, the sampled line being released, driven, or the index reserved. -/
theorem rbitStoresOneSample : Obligations.RbitStoresOneSample := by
  refine ⟨fun i n s released => ?_, fun i n s driven => ?_, fun k n s hk => exec_rbit_of_reserved hk n s⟩
  · have hacts : actsOf s.cfg s.txb s.level (rbitBody i n) = rbitActs s.cfg (s.level 0) := rfl
    refine ⟨bitnOf (s.ph + 6#6), ?_⟩
    rw [exec_rbit, runAll_of_ready (readyAll_rbitBody s.txb i n released), afterAll,
      onCells_rbitBody_drive, hacts, elapsed_rbitActs]
    rfl
  · rw [exec_rbit, runAll_rbitBody_of_driven i n driven]

/-! ### Bits of a byte (R67, R206) -/

theorem getLsbD_insertBit (b : Byte) (n : BitVec 3) (v : Level) {i : Nat} (hi : i < 8) :
    (insertBit b n v).getLsbD i = if i = n.toNat then v else b.getLsbD i := by
  obtain rfl | hne := eq_or_ne i n.toNat
  · simp [insertBit, hi]
  · rw [if_neg hne]
    obtain hlt | hgt := Nat.lt_or_gt_of_ne hne
    · simp [insertBit, hlt, hi]
    · have hpos : i - n.toNat ≠ 0 := by omega
      simp [insertBit, hi, hpos, Nat.not_lt.mpr hgt.le]

/-- Of the levels a byte is assembled from, the last is bit 0. -/
theorem getLsbD_byteOf (l : List Level) {i : Nat} (hi : i < 8) :
    (byteOf l).getLsbD i = (l.reverse[i]?).getD false := by
  induction l using List.reverseRecOn generalizing i with
  | nil => simp [byteOf]
  | append_singleton l v ih =>
    have hstep : byteOf (l ++ [v]) = (byteOf l <<< 1) ||| (BitVec.ofBool v).setWidth 8 := by
      simp [byteOf]
    cases i with
    | zero => simp [hstep]
    | succ i =>
      have hlt : i < 8 := Nat.lt_of_succ_lt hi
      simpa [hstep, hi, BitVec.getLsbD_eq_getElem hlt] using ih hlt

/-- R67: a byte is its own bits, most significant first. -/
theorem byteOf_extractBit (b : Byte) : byteOf (bitOrder.map (extractBit b)) = b := by
  refine BitVec.eq_of_getLsbD_eq fun i hi => ?_
  rw [getLsbD_byteOf _ hi]
  interval_cases i <;> rfl

/-! ### The byte received (R145) -/

/-- The byte `b` after samples `a 0`, `a 1`, … are inserted at the bit indices of a list. -/
def insertBits : (Nat → Level) → List (BitVec 3) → Byte → Byte
  | _, [], b => b
  | a, n :: ns, b => insertBits (fun j => a (j + 1)) ns (insertBit b n (a 0))

/-- Eight samples inserted from bit 7 down leave nothing of what the byte was. -/
theorem insertBits_bitOrder (a : Nat → Level) (b : Byte) : insertBits a bitOrder b = byteFrom a 0 := by
  refine BitVec.eq_of_getLsbD_eq fun i hi => ?_
  simp only [bitOrder, insertBits, getLsbD_insertBit _ _ _ hi, byteFrom, getLsbD_byteOf _ hi]
  interval_cases i <;> rfl

theorem FiveBytes.set_get (r : FiveBytes) (k : Fin 5) : r.set k (r.get k) = r := by
  fin_cases k <;> rfl

theorem FiveBytes.set_set (r : FiveBytes) (k : Fin 5) (v w : Byte) : (r.set k v).set k w = r.set k w := by
  fin_cases k <;> rfl

/-- Read slots change one register, bit after bit. -/
theorem rxAfter_rbitSlots (a : Nat → Level) (k : Fin 5) (ns : List (BitVec 3)) (r : FiveBytes) :
    rxAfter a (ns.flatMap (rbitBody k)) r = r.set k (insertBits a ns (r.get k)) := by
  induction ns generalizing a r with
  | nil => exact (r.set_get k).symm
  | cons n ns ih =>
    have hslot : rxAfter a (rbitBody k n ++ ns.flatMap (rbitBody k)) r =
        rxAfter (fun j => a (j + 1)) (ns.flatMap (rbitBody k))
          (r.set k (insertBit (r.get k) n (a 0))) := rfl
    rw [List.flatMap_cons, hslot, ih, FiveBytes.set_set, FiveBytes.get_set, if_pos rfl, insertBits]

theorem rxAfter_rbyteBody (a : Nat → Level) (k : Fin 5) (r : FiveBytes) :
    rxAfter a (rbyteBody k) r = r.set k (byteFrom a 0) := by
  rw [← insertBits_bitOrder a (r.get k)]
  exact rxAfter_rbitSlots a k bitOrder r

theorem onCells_rbyteBody_drive (txb : Byte) (k : Fin 5) (c : Cell × Cell) :
    (rbyteBody k).foldl (Micro.onCells txb) c = (c.1.drive true, .inp c.2.lat) := by
  have hrel : [Micro.setLvl .scl false, .setDir .sda .input].foldl (Micro.onCells txb) c =
      (c.1.drive false, .inp c.2.lat) := rfl
  simp only [rbyteBody, List.foldl_append, hrel, bitOrder, List.flatMap_cons, List.flatMap_nil,
    onCells_rbitBody_drive, Cell.drive_drive, List.foldl_nil]

/-- Read slots go on under any clock line: they sample the data line only. -/
theorem readyAll_rbitSlots_of_released (txb : Byte) (k : Fin 5) (ns : List (BitVec 3)) {c : Cell × Cell}
    (h : c.2.dir = .input) : readyAll txb (ns.flatMap (rbitBody k)) c := by
  induction ns generalizing c with
  | nil => trivial
  | cons n ns ih =>
    rw [List.flatMap_cons, readyAll_append, onCells_rbitBody_drive]
    exact ⟨readyAll_rbitBody txb k n h, ih h⟩

/-- A byte received releases the data line before its first sample. -/
theorem readyAll_rbyteBody_of_any (txb : Byte) (k : Fin 5) (c : Cell × Cell) :
    readyAll txb (rbyteBody k) c :=
  ⟨trivial, trivial, readyAll_rbitSlots_of_released txb k bitOrder rfl⟩

theorem actsOf_rbitBody_append (p : Params) (txb : Byte) (a : Nat → Level) (k : Fin 5) (n : BitVec 3)
    (ms : List Micro) : actsOf p txb a (rbitBody k n ++ ms) =
      rbitActs p (a 0) ++ actsOf p txb (fun j => a (j + 1)) ms := rfl

theorem actsOf_rbyteBody (p : Params) (txb : Byte) (a : Nat → Level) (k : Fin 5) :
    actsOf p txb a (rbyteBody k) = rbyteActs p a := by
  have hslots : actsOf p txb a (rbyteBody k) = [.lvl .scl false, .dir .sda .input] ++
      actsOf p txb a (bitOrder.flatMap (rbitBody k)) := rfl
  simp only [hslots, rbyteActs, bitOrder, List.flatMap_cons, List.flatMap_nil, actsOf_rbitBody_append,
    actsOf, Nat.reduceAdd, Nat.zero_add, Nat.add_assoc]

theorem sampAfter_rbitBody_append (a : Nat → Level) (k : Fin 5) (n : BitVec 3) (ms : List Micro)
    (v : Level) : sampAfter a (rbitBody k n ++ ms) v = sampAfter (fun j => a (j + 1)) ms (a 0) := rfl

theorem sampAfter_rbyteBody (a : Nat → Level) (k : Fin 5) (v : Level) :
    sampAfter a (rbyteBody k) v = a 7 := by
  have hslots : sampAfter a (rbyteBody k) v = sampAfter a (bitOrder.flatMap (rbitBody k)) v := rfl
  simp only [hslots, bitOrder, List.flatMap_cons, List.flatMap_nil, sampAfter_rbitBody_append, sampAfter]

theorem samp0After_rbitSlots (a : Nat → Level) (k : Fin 5) (ns : List (BitVec 3)) (v : Level) :
    samp0After a (ns.flatMap (rbitBody k)) v = v := by
  induction ns generalizing a with
  | nil => rfl
  | cons n ns ih => exact ih fun j => a (j + 1)

theorem samp0After_rbyteBody (a : Nat → Level) (k : Fin 5) (v : Level) :
    samp0After a (rbyteBody k) v = v := samp0After_rbitSlots a k bitOrder v

theorem takesOf_rbitSlots (k : Fin 5) (ns : List (BitVec 3)) :
    takesOf (ns.flatMap (rbitBody k)) = ns.length := by
  induction ns with
  | nil => rfl
  | cons n ns ih => simp [rbitBody, takesOf, Micro.takes, ih, Nat.add_comm]

theorem takesOf_rbyteBody (k : Fin 5) : takesOf (rbyteBody k) = 8 := by
  have hslots : takesOf (rbyteBody k) = 0 + (0 + takesOf (bitOrder.flatMap (rbitBody k))) := rfl
  rw [hslots, takesOf_rbitSlots]
  rfl

theorem elapsed_rbyteActs (p : Params) (a : Nat → Level) :
    elapsed (rbyteActs p a) = 8 * (p.us .h + p.us .q + p.us .q) := by
  rw [rbyteActs, elapsed_append, elapsed_flatMap fun _ _ => elapsed_rbitActs p _]
  simp [elapsed]

theorem exec_rbyte (i : Fin 5) (s : State) :
    exec (.rbyte (BitVec.ofNat 3 i)) s = (rbyteRoutine i).run s := by
  simp only [exec, execRbyte, rxIndex_ofNat]

theorem exec_rbyte_of_reserved {k : BitVec 3} (h : 4 < k.toNat) (s : State) :
    exec (.rbyte k) s = .refused .reservedMicroword := by
  simp only [exec, execRbyte, rxIndex_of_reserved h]

/-- Settles O17: the byte's own release of the data line lets all eight samples be taken. -/
theorem rbyteAssemblesEightSamples : Obligations.RbyteAssemblesEightSamples := by
  refine ⟨fun i s => ⟨bitnOf 0#6, ?_⟩, fun k s hk => exec_rbyte_of_reserved hk s⟩
  have hrun : runAll (rbyteBody i) s = .next (afterAll (rbyteBody i) s) :=
    runAll_of_ready (readyAll_rbyteBody_of_any s.txb i _)
  rw [exec_rbyte, Routine.run, rbyteRoutine, hrun, afterAll, onCells_rbyteBody_drive, rxAfter_rbyteBody,
    sampAfter_rbyteBody, samp0After_rbyteBody, takesOf_rbyteBody, actsOf_rbyteBody, elapsed_rbyteActs]
  rfl

/-! ### What a receiver reads (R147) -/

/-- A fold whose step can only override what came before. -/
theorem foldl_eq_or {α β : Type} {f : Option β → α → Option β} (hf : ∀ acc e, f acc e = (f none e).or acc)
    (acc : Option β) (es : List α) : es.foldl f acc = (es.foldl f none).or acc := by
  induction es generalizing acc with
  | nil => rfl
  | cons e es ih => rw [List.foldl_cons, List.foldl_cons, ih, ih (f none e), hf acc, Option.or_assoc]

/-- The later part of a trace decides, where it sets the line at all. -/
theorem levelAt_append (a b : List Event) (l : Line) (t : Nat) :
    levelAt (a ++ b) l t = (levelAt b l t).or (levelAt a l t) := by
  rw [levelAt, List.foldl_append]
  refine foldl_eq_or (fun acc e => ?_) _ b
  obtain ⟨time, act⟩ := e
  cases act with
  | lvl l' v => dsimp only; split_ifs <;> simp
  | dir | smp | dly => rfl

/-- Nothing is set before the first stamp. -/
theorem levelAt_stamped_of_lt {t u : Nat} (h : t < u) (acts : List Act) (l : Line) :
    levelAt (stamped u acts) l t = none := by
  induction acts generalizing u with
  | nil => rfl
  | cons x xs ih =>
    have hhead : levelAt [⟨u, x⟩] l t = none := by
      cases x <;> simp [levelAt, h]
    rw [stamped_cons, ← List.singleton_append, levelAt_append, ih (by omega), hhead, Option.none_or]

/-- A write slot sets the data line a quarter after its beginning. -/
theorem levelAt_wbitActs (p : Params) (v : Level) {t u : Nat} (h : u + p.us .q ≤ t) :
    levelAt (stamped u (wbitActs p v)) .sda t = some v := by
  simp [levelAt, stamped, wbitActs, h]

/-- At three quarters of slot `i` the data line has the level of that slot. -/
theorem levelAt_wbitSlots {p : Params} (hp : p.legal = true) (vs : List Level) {i : Nat}
    (hi : i < vs.length) (u : Nat) :
    levelAt (stamped u (vs.flatMap (wbitActs p))) .sda (u + i * p.us .f + 3 * p.us .q) = vs[i]? := by
  obtain ⟨hfull, hsum, hpos⟩ : p.us .f = 4 * p.us .q ∧ p.us .q + p.us .q + p.us .h = p.us .f ∧
      0 < p.us .q := by
    have hdiv := legalPeriodDividesExactly.1 p hp
    omega
  induction vs generalizing i u with
  | nil => cases hi
  | cons v vs ih =>
    rw [List.flatMap_cons, stamped_append, elapsed_wbitActs, hsum, levelAt_append]
    cases i with
    | zero =>
      rw [levelAt_stamped_of_lt (by omega), levelAt_wbitActs p v (by omega)]
      rfl
    | succ i =>
      have hnext : u + (i + 1) * p.us .f + 3 * p.us .q = (u + p.us .f) + i * p.us .f + 3 * p.us .q := by
        ring
      have hlt : i < vs.length := Nat.lt_of_succ_lt_succ hi
      rw [hnext, ih hlt, List.getElem?_cons_succ, List.getElem?_eq_getElem hlt, Option.some_or]

/-- Whatever the trace before the slots holds. -/
theorem levelAt_append_wbitSlots {p : Params} (hp : p.legal = true) (tr : List Event) (u : Nat)
    {vs : List Level} {i : Nat} (hi : i < vs.length) :
    levelAt (tr ++ stamped u (vs.flatMap (wbitActs p))) .sda (u + i * p.us .f + 3 * p.us .q) = vs[i]? := by
  rw [levelAt_append, levelAt_wbitSlots hp vs hi, List.getElem?_eq_getElem hi, Option.some_or]

/-- Write slots one after another are one list of primitives. -/
theorem execAll_wbit (ns : List (BitVec 3)) (s : State) :
    execAll (ns.map .wbit) s = runAll (ns.flatMap wbitBody) s := by
  induction ns generalizing s with
  | nil => rfl
  | cons n ns ih =>
    rw [List.flatMap_cons, runAll_append]
    exact congrArg (andThen (runAll (wbitBody n) s)) (funext ih)

theorem wbitSlots_no_sample (ns : List (BitVec 3)) : ∀ m ∈ ns.flatMap wbitBody, m.takes = 0 := by
  intro m hm
  obtain ⟨n, -, hmn⟩ := List.mem_flatMap.mp hm
  exact wbitBody_no_sample n m hmn

/-- A list read by index is the list. -/
theorem map_getD_range (vs : List Level) :
    (List.range vs.length).map (fun i => (vs[i]?).getD false) = vs :=
  List.ext_getElem (by simp) fun i _ hi => by simp [hi]

/-- Settles O18: the slots' levels are the bits of the byte, and no earlier event counts after them. -/
theorem receiverOfAWrittenByteReadsIt : Obligations.ReceiverOfAWrittenByteReadsIt := by
  intro s hlegal _ _
  have hacts : actsOf s.cfg s.txb s.level (bitOrder.flatMap wbitBody) =
      (bitOrder.map (extractBit s.txb)).flatMap (wbitActs s.cfg) := rfl
  refine ⟨_, (execAll_wbit bitOrder s).trans (runAll_of_no_sample (wbitSlots_no_sample bitOrder) s), ?_⟩
  dsimp only
  rw [hacts]
  refine (congrArg byteOf (.trans (List.map_congr_left fun i hi => ?_) (map_getD_range _))).trans
    (byteOf_extractBit s.txb)
  have hlt : i < (bitOrder.map (extractBit s.txb)).length := List.mem_range.mp hi
  rw [levelAt_append_wbitSlots hlegal s.tr s.now hlt]

end Sys2Proof.Machine
end

section
/-!
PROOFS. The family of `42_transaction_sequencer.md`: the operations of a transaction, the lines each
primitive of the microprogram finds, the control transfers, that no run stops, and how long a run is.
-/

namespace Sys2Proof.Machine

/-! ### The microprogram (R161) -/

/-- Settles O4: 26 words, each decoded. -/
theorem microprogramIsTheTable : Obligations.MicroprogramIsTheTable := ⟨rfl, rfl⟩

/-! ### Operations without a sample (R165, R170 to R176) -/

/-- An entry that takes no sample and goes on at the next one does so in every state: given what its
primitives make of the lines and what they record, this is all it does. -/
theorem run_sequential {ms : List Micro} (hms : ∀ m ∈ ms, m.takes = 0) {s : State} {c : Cell × Cell}
    {acts : List Act} (hc : ms.foldl (Micro.onCells s.txb) (s.scl, s.sda) = c)
    (hacts : actsOf s.cfg s.txb s.level ms = acts) :
    Routine.run ⟨fun s => s, ms, State.nextEntry⟩ s = .next { s with
      scl := c.1
      sda := c.2
      now := s.now + elapsed acts
      tr := s.tr ++ stamped s.now acts
      upc := s.upc + 1#5
      ph := 0#6
      bitn := bitnOf 0#6 } := by
  rw [Routine.run, runAll_of_no_sample hms, hc, hacts]
  rfl

/-- Settles O20: `START` takes no sample. -/
theorem startPullsDataLow : Obligations.StartPullsDataLow := fun _ =>
  ⟨bitnOf 0#6, run_sequential (ms := startRoutine.body) (by decide) rfl rfl⟩

theorem onCells_restartBody (txb : Byte) (c : Cell × Cell) :
    restartRoutine.body.foldl (Micro.onCells txb) c = (c.1.drive true, .out false) := by
  simp [restartRoutine, Micro.onCells, Cell.drive_of_output, Cell.turn, Cell.out]

theorem elapsed_restartActs (p : Params) :
    elapsed (restartActs p) = p.us .h + p.us .h + p.us .h := by
  simp [restartActs, elapsed, Nat.add_assoc]

/-- Settles O22: `RESTART` takes no sample. -/
theorem restartPullsDataLowUnderHighClock : Obligations.RestartPullsDataLowUnderHighClock := by
  intro s
  refine ⟨bitnOf 0#6, ?_⟩
  rw [← elapsed_restartActs]
  exact run_sequential (ms := restartRoutine.body) (by decide) (onCells_restartBody s.txb _) rfl

theorem pulseBody_no_sample (v : Level) : ∀ m ∈ pulseBody v, m.takes = 0 := by
  simp [pulseBody, Micro.takes]

theorem onCells_pulseBody (txb : Byte) (v : Level) (c : Cell × Cell) :
    (pulseBody v).foldl (Micro.onCells txb) c = (c.1.drive true, .out v) := by
  simp [pulseBody, Micro.onCells, Cell.drive_of_output, Cell.turn, Cell.out]

theorem elapsed_pulseActs (p : Params) (v : Level) :
    elapsed (pulseActs p v) = p.us .q + p.us .q + p.us .h := by
  simp [pulseActs, elapsed, Nat.add_assoc]

/-- The pulse with data level `v`, of which `SACK` and `SNAK` are the two cases. -/
theorem run_pulse (v : Level) (s : State) :
    Routine.run ⟨fun s => s, pulseBody v, State.nextEntry⟩ s = .next { s with
      scl := s.scl.drive true
      sda := ⟨.output, v⟩
      now := s.now + (s.cfg.us .q + s.cfg.us .q + s.cfg.us .h)
      tr := s.tr ++ stamped s.now (pulseActs s.cfg v)
      upc := s.upc + 1#5
      ph := 0#6
      bitn := bitnOf 0#6 } := by
  rw [← elapsed_pulseActs _ v]
  exact run_sequential (pulseBody_no_sample v) (onCells_pulseBody s.txb v _) rfl

/-- Settles O23: the pulse with level low. -/
theorem sackSendsALowPulse : Obligations.SackSendsALowPulse := fun s => ⟨bitnOf 0#6, run_pulse false s⟩

/-- Settles O24: the pulse with level high. -/
theorem snakSendsAHighPulse : Obligations.SnakSendsAHighPulse := fun s => ⟨bitnOf 0#6, run_pulse true s⟩

theorem onCells_stopBody (txb : Byte) (c : Cell × Cell) :
    stopRoutine.body.foldl (Micro.onCells txb) c = (c.1.drive true, c.2.drive true) := by
  simp [stopRoutine, Micro.onCells]

theorem elapsed_stopActs (p : Params) :
    elapsed (stopActs p) = p.us .q + p.us .q + p.us .h + p.us .h := by
  simp [stopActs, elapsed, Nat.add_assoc]

/-- Settles O25: `STOP` takes no sample. -/
theorem stopRaisesDataUnderHighClock : Obligations.StopRaisesDataUnderHighClock := by
  intro s
  refine ⟨bitnOf 0#6, ?_⟩
  rw [← elapsed_stopActs]
  exact run_sequential (ms := stopRoutine.body) (by decide) (onCells_stopBody s.txb _) rfl

/-- Settles O26: `RELLN` takes no sample and no time. -/
theorem rellnReleasesBothLines : Obligations.RellnReleasesBothLines := fun _ =>
  ⟨bitnOf 0#6, run_sequential (ms := rellnRoutine.body) (by decide) rfl rfl⟩

/-- Settles O28: `FAIL` has no primitive, so it is `END(err_pend)` alone. -/
theorem failReportsThePendingError : Obligations.FailReportsThePendingError := fun _ =>
  ⟨bitnOf 0#6, rfl⟩

/-! ### The operations that sample (R163, R168) -/

/-- With both lines released the idle check goes on, to its transfer. -/
theorem run_idlechk {s : State} (hscl : s.scl.dir = .input) (hsda : s.sda.dir = .input) :
    idlechkRoutine.run s = .next (idlechkRoutine.finish (afterAll idlechkRoutine.body s)) := by
  have hready : readyAll s.txb idlechkRoutine.body (s.scl, s.sda) := ⟨hscl, hsda, trivial⟩
  exact congrArg (andThen · _) (runAll_of_ready hready)

/-- A driven clock is refused at once, a driven data line after the clock's sample. -/
theorem run_idlechk_of_driven {s : State} (h : s.scl.dir = .output ∨ s.sda.dir = .output) :
    idlechkRoutine.run s = .refused .getlvlOfDrivenLine := by
  have hrun : idlechkRoutine.run s = andThen (andThen (perform (.keepFirst .scl) s)
      (runAll [.getLvl .sda])) fun t => .next (idlechkRoutine.finish t) := rfl
  cases hd : s.scl.dir with
  | output => rw [hrun, perform, State.getLvl_of_output (l := .scl) hd]; rfl
  | input =>
    obtain ⟨t, ht⟩ := perform_ready (m := .keepFirst .scl) (s := s) hd
    have hsda : t.sda = s.sda := congrArg Prod.snd (perform_next ht).cells
    have driven : (t.cell .sda).dir = .output := by
      rw [State.cell_sda, hsda]
      exact h.resolve_left (by simp [hd])
    rw [hrun, ht, andThen_next, runAll_cons, perform, State.getLvl_of_output driven]
    rfl

/-- Settles O19: the transfer's test is of the two samples just taken. -/
theorem idlechkNeedsBothLinesHigh : Obligations.IdlechkNeedsBothLinesHigh := by
  refine ⟨fun s t hscl hsda ht => ⟨bitnOf 0#6, ?_⟩, fun s h => run_idlechk_of_driven h⟩
  have htest : (afterAll idlechkRoutine.body s).busIdle = true ↔ s.level 0 = true ∧ s.level 1 = true :=
    Bool.and_eq_true_iff
  refine (run_idlechk hscl hsda).trans ?_
  subst ht
  split
  · next high => exact congrArg Host.Outcome.next ((if_pos (htest.mpr high)).trans rfl)
  · next low => exact congrArg Host.Outcome.next ((if_neg (low ∘ htest.mp)).trans rfl)

theorem onCells_ackwBody (txb : Byte) (c : Cell × Cell) :
    ackwRoutine.body.foldl (Micro.onCells txb) c = (c.1.drive true, .inp c.2.lat) := by
  simp [ackwRoutine, Micro.onCells, Cell.turn, Cell.inp]

theorem elapsed_ackwActs (p : Params) (v : Level) :
    elapsed (ackwActs p v) = p.us .h + p.us .q + p.us .q := by
  simp [ackwActs, elapsed, Nat.add_assoc]

/-- The acknowledge wait releases the data line before it samples it, so it goes on in every state. -/
theorem run_ackw (s : State) : ackwRoutine.run s = .next (ackwRoutine.finish { s with
    scl := s.scl.drive true
    sda := .inp s.sda.lat
    samp := s.level 0
    answers := s.answers.drop 1
    asked := s.asked + 1
    now := s.now + (s.cfg.us .h + s.cfg.us .q + s.cfg.us .q)
    tr := s.tr ++ stamped s.now (ackwActs s.cfg (s.level 0))
    ph := s.ph + 7#6
    bitn := bitnOf (s.ph + 7#6) }) := by
  have hready : readyAll s.txb ackwRoutine.body (s.scl, s.sda) :=
    ⟨trivial, trivial, trivial, trivial, trivial, rfl, trivial, trivial⟩
  have hacts : actsOf s.cfg s.txb s.level ackwRoutine.body = ackwActs s.cfg (s.level 0) := rfl
  have hload : ackwRoutine.begin s = s := rfl
  rw [Routine.run, hload, runAll_of_ready hready, afterAll, onCells_ackwBody, hacts, elapsed_ackwActs]
  rfl

/-- Settles O21: the branch is taken on the sample, after the slot is complete. -/
theorem ackwBranchesOnItsSample : Obligations.AckwBranchesOnItsSample := by
  intro s t ht
  refine ⟨bitnOf 0#6, (run_ackw s).trans ?_⟩
  subst ht
  split
  · next low => exact congrArg Host.Outcome.next ((if_neg (by simp [low])).trans rfl)
  · next high => exact congrArg Host.Outcome.next ((if_pos (by simpa using high)).trans rfl)

/-! ### What holds at every primitive of an entry -/

/-- `P` holds of every primitive of a list and of the cells it is performed on, `c` being those the list
begins with. -/
def allAlong (P : Cell × Cell → Micro → Bool) (txb : Byte) : List Micro → Cell × Cell → Bool
  | [], _ => true
  | m :: ms, c => P c m && allAlong P txb ms (m.onCells txb c)

theorem allAlong_append {P : Cell × Cell → Micro → Bool} {txb : Byte} (a b : List Micro)
    (c : Cell × Cell) : allAlong P txb (a ++ b) c =
      (allAlong P txb a c && allAlong P txb b (a.foldl (Micro.onCells txb) c)) := by
  induction a generalizing c with
  | nil => rfl
  | cons m ms ih => simp only [List.cons_append, allAlong, ih, Bool.and_assoc, List.foldl_cons]

theorem allAlong_getElem? {P : Cell × Cell → Micro → Bool} {txb : Byte} {ms : List Micro}
    {c : Cell × Cell} {n : Nat} {m : Micro} (h : allAlong P txb ms c = true) (hm : ms[n]? = some m) :
    P ((ms.take n).foldl (Micro.onCells txb) c) m = true := by
  induction ms generalizing c n with
  | nil => cases hm
  | cons x xs ih =>
    obtain ⟨hx, hxs⟩ := Bool.and_eq_true_iff.mp h
    cases n with
    | zero => cases hm; exact hx
    | succ n => exact ih hxs hm

/-! ### What the microprogram keeps to (R186 to R188) -/

/-- The cell of a line. -/
def cellOf (c : Cell × Cell) : Line → Cell
  | .scl => c.1
  | .sda => c.2

/-- The primitive sets a level of a driven line, or samples a released one, or does neither. -/
def Micro.lineReady (c : Cell × Cell) : Micro → Bool
  | .setLvl l _ => decide ((cellOf c l).dir = .output)
  | .sendBit _ => decide (c.2.dir = .output)
  | .getLvl l => decide ((cellOf c l).dir = .input)
  | .keepFirst l => decide ((cellOf c l).dir = .input)
  | .takeBit _ _ => decide (c.2.dir = .input)
  | .setDir _ _ => true
  | .delay _ => true

/-- The driven levels of `SDA` before and after, with the entries at which R186 lets the data line be
moved so under a driven high clock. -/
def framing : List (BitVec 5 × Option Level × Option Level) :=
  [(1#5, none, some true), (4#5, none, some false), (1#5, some true, some false),
    (6#5, some true, some false), (19#5, some false, some true), (23#5, some false, some true)]

/-- The primitive has to do with the data line's driver. -/
def Micro.drivesData : Micro → Bool
  | .setDir .sda _ | .setLvl .sda _ | .sendBit _ => true
  | .setDir .scl _ | .setLvl .scl _ | .getLvl _ | .keepFirst _ | .takeBit _ _ | .delay _ => false

/-- In the entry at `u` the primitive leaves what `SDA` is driven to, or the clock is not driven high, or
the move frames the transfer. -/
def Micro.dataFramed (u : BitVec 5) (txb : Byte) (c : Cell × Cell) (m : Micro) : Bool :=
  !m.drivesData || decide (c.1 ≠ .out true) || decide ((m.onCells txb c).2.drives = c.2.drives) ||
    framing.contains (u, c.2.drives, (m.onCells txb c).2.drives)

/-- What the microprogram keeps to at each primitive of the entry at `u` (R186 to R188). -/
def Micro.obeys (u : BitVec 5) (txb : Byte) (c : Cell × Cell) (m : Micro) : Bool :=
  m.lineReady c && m.dataFramed u txb c

/-- Write slots set levels of two driven lines, the data line's under a low clock. -/
theorem obeys_wbitSlots (u : BitVec 5) (txb : Byte) (ns : List (BitVec 3)) (v w : Level) :
    allAlong (Micro.obeys u txb) txb (ns.flatMap wbitBody) (.out v, .out w) = true := by
  induction ns generalizing v w with
  | nil => rfl
  | cons n ns ih =>
    rw [List.flatMap_cons, allAlong_append, onCells_wbitBody, ih, Bool.and_true]
    rfl

/-- Read slots sample a released data line. -/
theorem obeys_rbitSlots (u : BitVec 5) (txb : Byte) (k : Fin 5) (ns : List (BitVec 3)) (v w : Level) :
    allAlong (Micro.obeys u txb) txb (ns.flatMap (rbitBody k)) (.out v, .inp w) = true := by
  induction ns generalizing v with
  | nil => rfl
  | cons n ns ih =>
    rw [List.flatMap_cons, allAlong_append, onCells_rbitBody, ih, Bool.and_true]
    rfl

theorem obeys_wbyteBody {u : BitVec 5} {txb : Byte} {c : Cell × Cell}
    (h : allAlong (Micro.obeys u txb) txb [.setDir .scl .output, .setDir .sda .output] c = true) :
    allAlong (Micro.obeys u txb) txb wbyteBody c = true := by
  rw [wbyteBody, allAlong_append, h, Bool.true_and]
  exact obeys_wbitSlots u txb bitOrder _ _

theorem obeys_rbyteBody (u : BitVec 5) (txb : Byte) (k : Fin 5) (v : Level) (d : Cell) :
    allAlong (Micro.obeys u txb) txb (rbyteBody k) (.out v, d) = true := by
  rw [rbyteBody, allAlong_append]
  exact Bool.and_eq_true_iff.mpr ⟨rfl, obeys_rbitSlots u txb k bitOrder false d.lat⟩

/-- From the cells it begins with, every entry keeps to the rules: those that send or receive a byte slot
by slot, the others by evaluation. -/
theorem obeys_entryBody (txb : Byte) {u : BitVec 5} (hu : u.toNat < 26) :
    ∀ c ∈ cellsAt u, allAlong (Micro.obeys u txb) txb (entryBody u) c = true := by
  have all : ∀ n < 26, ∀ c ∈ cellsAt (BitVec.ofNat 5 n),
      allAlong (Micro.obeys (BitVec.ofNat 5 n) txb) txb (entryBody (BitVec.ofNat 5 n)) c = true := by
    intro n hn
    match n, hn with
    | 2, _ | 4, _ | 7, _ => exact List.forall_mem_singleton.mpr (obeys_wbyteBody rfl)
    | 9, _ | 11, _ | 13, _ | 15, _ | 17, _ =>
      exact List.forall_mem_singleton.mpr (obeys_rbyteBody _ txb _ true _)
    | 22, _ => exact List.forall_mem_cons.mpr ⟨rfl, List.forall_mem_singleton.mpr rfl⟩
    | 0, _ | 1, _ | 3, _ | 5, _ | 6, _ | 8, _ | 10, _ | 12, _ | 14, _ | 16, _ | 18, _ | 19, _ | 20, _
    | 21, _ | 23, _ | 24, _ | 25, _ => exact List.forall_mem_singleton.mpr rfl
    | n + 26, hn => omega
  simpa using all u.toNat hu

/-- In a transaction the next primitive keeps to the rules of its entry. -/
theorem Along.obeys {n : Nat} {s : State} {m : Micro} (h : Along n s)
    (hm : (entryBody s.upc)[n]? = some m) :
    m.lineReady (s.scl, s.sda) = true ∧ m.dataFramed s.upc s.txb (s.scl, s.sda) = true := by
  obtain ⟨c, hc, hlines⟩ := h.lines
  rw [← hlines]
  exact Bool.and_eq_true_iff.mp (allAlong_getElem? (obeys_entryBody s.txb h.entry c hc) hm)

/-- What the engine's next primitive is performed on: `TXB` loaded, if this is the entry's first. -/
theorem Running.entered {s : State} (h : Running s) :
    ∃ r b, (entryAt s.upc).bind routineOf = some r ∧ entryBody s.upc = r.body ∧
      r.entered s = { s with txb := b } ∧ Along s.ph.toNat { s with txb := b } := by
  obtain ⟨i, r, hi, hri, -, hbody, -⟩ := entry_of_lt h.entry
  have hr : (entryAt s.upc).bind routineOf = some r := by rw [hi]; exact hri
  obtain ⟨b, hb⟩ := Routine.entered_eq_txb h.entry hr
  exact ⟨r, b, hr, hbody, hb, h.along hr hb⟩

/-- R187, R188 at the next primitive. -/
theorem Running.lineReady {s : State} {m : Micro} (h : Running s)
    (hm : (entryBody s.upc)[s.ph.toNat]? = some m) : m.lineReady (s.scl, s.sda) = true := by
  obtain ⟨r, b, -, -, -, ha⟩ := h.entered
  exact (ha.obeys hm).1

/-- Settles O48, the lines being followed through each entry from the cells it begins with. -/
theorem everyPrimitiveFindsItsLineReady : Obligations.EveryPrimitiveFindsItsLineReady := by
  intro s m hi hb hm
  have h := (hi.running hb).lineReady hm
  cases m with
  | setLvl l | getLvl l | keepFirst l => cases l <;> exact of_decide_eq_true h
  | sendBit | takeBit => exact of_decide_eq_true h
  | setDir | delay => trivial

/-! ### No run stops (R187, R188, R260) -/

theorem Micro.ready_of_lineReady {m : Micro} {c : Cell × Cell} (h : m.lineReady c = true) :
    m.ready c := by
  cases m with
  | getLvl l | keepFirst l =>
    have released : (cellOf c l).dir = .input := of_decide_eq_true h
    cases l <;> exact released
  | takeBit =>
    have released : c.2.dir = .input := of_decide_eq_true h
    exact released
  | setDir | setLvl | sendBit | delay => trivial

/-- The engine's smallest step goes on: a sample finds its line released, and `ph` is in the entry. -/
theorem Running.enginePrimitive_goes_on {s : State} (h : Running s) (hb : s.busy = true) :
    ∃ t, enginePrimitive s = .next t := by
  obtain ⟨r, b, hr, hbody, hload, ha⟩ := h.entered
  rw [enginePrimitive_of_entry hb hr]
  cases hm : r.body[s.ph.toNat]? with
  | some m =>
    obtain ⟨u, hu⟩ := perform_ready (s := { s with txb := b })
      (Micro.ready_of_lineReady (ha.obeys (hbody ▸ hm)).1)
    rw [Routine.runPrimitive_of_getElem? hm, hload, hu]
    exact ⟨_, rfl⟩
  | none =>
    have hle : r.body.length ≤ s.ph.toNat := List.getElem?_eq_none_iff.mp hm
    have hphase := h.phase
    rw [hbody] at hphase
    have hnil : r.body = [] := List.length_eq_zero_iff.mp (by omega)
    exact ⟨_, Routine.runPrimitive_of_body_nil hnil (by bv_omega)⟩

theorem Inv.enginePrimitive_goes_on {s : State} (h : Inv s) : ∃ t, enginePrimitive s = .next t := by
  cases hb : s.busy with
  | true => exact (h.running hb).enginePrimitive_goes_on hb
  | false => exact ⟨s, enginePrimitive_of_idle hb⟩

theorem engine_of_inside {s : State} (h : s.ph ≠ 0#6) : engine s = enginePrimitive s := by
  simp only [engine, enginePrimitive, if_neg h]

theorem Inv.engine_goes_on {s : State} (h : Inv s) : ∃ t, engine s = .next t := by
  by_cases h0 : s.ph = 0#6
  · cases hb : s.busy with
    | true =>
      obtain ⟨r, -, hr⟩ := engine_of_start hb (h.running hb) h0
      exact ⟨_, hr⟩
    | false => exact ⟨s, engine_of_idle hb⟩
  · rw [engine_of_inside h0]
    exact h.enginePrimitive_goes_on

theorem hostCommand_goes_on (v : Byte) (s : State) : ∃ t, hostCommand v s = .next t := by
  cases hb : s.busy with
  | true => exact ⟨s, hostCommand_of_busy hb v⟩
  | false =>
    obtain ⟨t, ht, -⟩ := hostCommand_of_idle hb v
    exact ⟨t, ht⟩

/-- An access that exists is served in every state. -/
theorem hostAccess_goes_on {a : Access} (h : a.exists = true) (s : State) :
    ∃ t, hostAccess a s = .next t := by
  cases a with
  | read n w =>
    obtain ⟨hn, rfl⟩ : n ≤ 7 ∧ w = 1 := by simpa [Access.exists] using h
    exact ⟨_, hostAccess_read hn s⟩
  | write n w v =>
    obtain ⟨hn, rfl⟩ : n ≤ 7 ∧ w = 1 := by simpa [Access.exists] using h
    cases n with
    | zero => exact hostCommand_goes_on v s
    | succ n => exact ⟨s, hostAccess_write_ignored (Nat.succ_pos n) hn v s⟩

/-- Progress: whatever heads the schedule, the step serves it. -/
theorem Inv.step_goes_on {s : State} (h : Inv s) (hl : s.cfg.legal = true)
    (he : s.inputs.all Input.exists = true) : ∃ t, step s = .next t := by
  rw [step_of_boundary hl h.slot]
  cases hin : s.inputs with
  | nil => rw [boundary_nil hin]; exact h.engine_goes_on
  | cons i rest =>
    have hi : i.exists = true := by
      rw [hin, List.all_cons] at he
      exact (Bool.and_eq_true_iff.mp he).1
    cases i with
    | reset => exact ⟨_, boundary_reset hin⟩
    | prim => rw [boundary_prim hin]; exact (h.with_host rest s.replies).enginePrimitive_goes_on
    | hostNow a => rw [boundary_hostNow hin]; exact hostAccess_goes_on hi _
    | hostWhenIdle a =>
      rw [boundary_hostWhenIdle hin]
      split
      · exact h.engine_goes_on
      · exact hostAccess_goes_on hi _

theorem State.inputs_of_surroundings {s t : State} (h : t.surroundings = s.surroundings) :
    t.inputs = s.inputs := ((State.surroundings_eq_iff s t).mp h).2.1

theorem hostAccess_inputs {a : Access} {s t : State} (h : hostAccess a s = .next t) :
    t.inputs = s.inputs := by
  obtain ⟨n, -, -, rfl⟩ | ⟨n, v, -, -, -, rfl⟩ | ⟨v, -, h⟩ := hostAccess_next h
  · rfl
  · rfl
  · exact State.inputs_of_surroundings (hostCommand_surroundings h)

/-- A step takes at most the head off the schedule. -/
theorem step_inputs_suffix {s t : State} (h : step s = .next t) : t.inputs <:+ s.inputs := by
  obtain ⟨-, ⟨w, -, h⟩ | ⟨-, ⟨-, h⟩ | ⟨rest, hin, rfl⟩ | ⟨rest, hin, h⟩ | ⟨a, rest, hin, h⟩ |
    ⟨a, rest, -, -, h⟩ | ⟨a, rest, hin, -, h⟩⟩⟩ := step_next h
  case inl => rw [State.inputs_of_surroundings (issue_surroundings h)]
  · rw [State.inputs_of_surroundings (engine_surroundings h)]
  · rw [hin]; exact List.suffix_cons _ rest
  · rw [hin, State.inputs_of_surroundings (enginePrimitive_surroundings h)]
    exact List.suffix_cons _ rest
  · rw [hin, hostAccess_inputs h]; exact List.suffix_cons _ rest
  · rw [State.inputs_of_surroundings (engine_surroundings h)]
  · rw [hin, hostAccess_inputs h]; exact List.suffix_cons _ rest

/-- Settles O46: progress from `Inv.step_goes_on`; the invariant, the configuration and the schedule are
kept by any step that goes on. -/
theorem noRunIsRefused : Obligations.NoRunIsRefused := by
  intro s hi hl he
  obtain ⟨t, ht⟩ := hi.step_goes_on hl he
  have hsub := (step_inputs_suffix ht).subset
  refine ⟨t, ht, everyStepKeepsTheInvariant s t hi ht, (step_cfg ht).symm ▸ hl, ?_⟩
  exact List.all_eq_true.mpr fun i hmem => List.all_eq_true.mp he i (hsub hmem)

/-! ### What frames the transfer (R186) -/

theorem Micro.onCells_snd_of_not_drivesData {m : Micro} (h : m.drivesData = false) (txb : Byte)
    (c : Cell × Cell) : (m.onCells txb c).2 = c.2 := by
  cases m with
  | setDir l | setLvl l =>
    cases l with
    | scl => rfl
    | sda => cases h
  | sendBit => cases h
  | getLvl | keepFirst | takeBit | delay => rfl

/-- A move of the data line under a driven high clock is one of the six of R186. -/
theorem Micro.framing_of_dataFramed {m : Micro} {u : BitVec 5} {txb : Byte} {c : Cell × Cell}
    (h : m.dataFramed u txb c = true) (hclk : c.1 = .out true)
    (hmove : (m.onCells txb c).2.drives ≠ c.2.drives) :
    (u, c.2.drives, (m.onCells txb c).2.drives) ∈ framing := by
  have hdata : m.drivesData = true := by
    by_contra hno
    exact hmove (by rw [Micro.onCells_snd_of_not_drivesData (by simpa using hno)])
  simpa [Micro.dataFramed, hdata, hclk, hmove] using h

/-- No control transfer changes a line. -/
theorem Transfer.lines {u : BitVec 5} {s t : State} (h : Transfer u s t) :
    t.scl = s.scl ∧ t.sda = s.sda := by
  cases h with
  | sequential h | idle h | busBusy h | noAck h | accepted h | rejected h | failed h =>
    subst h; exact ⟨rfl, rfl⟩

/-- What the engine's smallest step does to the lines of a transaction: what its primitive does. -/
theorem Running.cells_next {s t : State} (h : Running s) (hb : s.busy = true)
    (hstep : enginePrimitive s = .next t) :
    (t.scl, t.sda) = (s.scl, s.sda) ∨
    ∃ (m : Micro) (txb : Byte), m.dataFramed s.upc txb (s.scl, s.sda) = true ∧
      (t.scl, t.sda) = m.onCells txb (s.scl, s.sda) := by
  obtain ⟨r, b, hr, hu, hload, ⟨m, u, hm, p, rfl⟩ | ⟨-, -, rfl⟩⟩ := enginePrimitive_next hb hstep
  · have hframed := ((h.along hr hload).obeys (entryBody_of_routine hr ▸ hm)).2
    refine .inr ⟨m, b, hframed, ?_⟩
    rw [← p.cells]
    split
    · obtain ⟨hscl, hsda⟩ := (finish_transfer hu hr u).lines
      rw [hscl, hsda]
    · rfl
  · obtain ⟨hscl, hsda⟩ := (finish_transfer hu hr { s with txb := b }).lines
    exact .inl (by rw [hscl, hsda])

/-- Settles O49: the six moves of R186 are those the entries make. -/
theorem dataMovesUnderHighClockOnlyToFrame : Obligations.DataMovesUnderHighClockOnlyToFrame := by
  intro s t hi hb hstep hclk hmove
  obtain hsame | ⟨m, txb, hframed, hcells⟩ := (hi.running hb).cells_next hb hstep
  · exact absurd (congrArg (fun c => c.2.drives) hsame) hmove
  · have hsda : t.sda = (m.onCells txb (s.scl, s.sda)).2 := congrArg Prod.snd hcells
    have hmem := Micro.framing_of_dataFramed hframed hclk (hsda ▸ hmove)
    rw [← hsda] at hmem
    simp only [framing, List.mem_cons, List.not_mem_nil, or_false, Prod.mk.injEq] at hmem
    obtain ⟨hu, hs, ht⟩ | ⟨hu, hs, ht⟩ | ⟨hu, hs, ht⟩ | ⟨hu, hs, ht⟩ | ⟨hu, hs, ht⟩ | ⟨hu, hs, ht⟩ :=
      hmem
    · exact .inl ⟨hs, .inl ⟨hu, ht⟩⟩
    · exact .inl ⟨hs, .inr ⟨hu, ht⟩⟩
    · exact .inr (.inl ⟨hs, ht, .inl hu⟩)
    · exact .inr (.inl ⟨hs, ht, .inr hu⟩)
    · exact .inr (.inr ⟨hs, ht, .inl hu⟩)
    · exact .inr (.inr ⟨hs, ht, .inr hu⟩)

/-! ### Where control goes (R162, R253) -/

/-- Where a control transfer of the entry at `u` leads: to the next entry, to the abort tail, or to the
end of the transaction. -/
theorem Transfer.leads {u : BitVec 5} {s t : State} (h : Transfer u s t) (hb : s.busy = true)
    (hu : s.upc = u) :
    t.ph = 0#6 ∧
      ((t.busy = true ∧ t.upc = u + 1#5 ∧ u ≠ 21#5 ∧ u ≠ 25#5) ∨
       (t.busy = true ∧ t.upc = 22#5 ∧ t.errPend = .ackTimeout ∧ (u = 3#5 ∨ u = 5#5 ∨ u = 8#5)) ∨
       (t.busy = false ∧ t.done = true ∧ t.upc = 0#5 ∧ (u = 0#5 ∨ u = 21#5 ∨ u = 25#5))) := by
  cases h with
  | sequential ht h21 h25 =>
    subst ht
    exact ⟨rfl, .inl ⟨hb, congrArg (· + 1#5) hu, h21, h25⟩⟩
  | idle ht h0 =>
    subst ht h0
    exact ⟨rfl, .inl ⟨hb, rfl, by decide, by decide⟩⟩
  | noAck ht hwait =>
    subst ht
    exact ⟨rfl, .inr (.inl ⟨hb, rfl, rfl, hwait⟩)⟩
  | busBusy ht h0 =>
    subst ht
    exact ⟨rfl, .inr (.inr ⟨rfl, rfl, rfl, .inl h0⟩)⟩
  | accepted ht h21 | rejected ht h21 =>
    subst ht
    exact ⟨rfl, .inr (.inr ⟨rfl, rfl, rfl, .inr (.inl h21)⟩)⟩
  | failed ht h25 =>
    subst ht
    exact ⟨rfl, .inr (.inr ⟨rfl, rfl, rfl, .inr (.inr h25)⟩)⟩

/-- Settles O50: before the last primitive the phase moves on, after it comes one of the transfers. -/
theorem controlTransfersOnlyAtTheEndOfAnEntry : Obligations.ControlTransfersOnlyAtTheEndOfAnEntry := by
  intro s t hi hb hstep
  obtain ⟨r, b, hr, hu, -, hcase⟩ := enginePrimitive_next hb hstep
  rw [entryBody_of_routine hr]
  obtain ⟨m, u, hm, p, rfl⟩ | ⟨h0, hnil, rfl⟩ := hcase
  · have hlt : s.ph.toNat < r.body.length := (List.getElem?_eq_some_iff.mp hm).1
    split
    · next hlast =>
      exact .inr ⟨hlast.ge, (finish_transfer hu hr u).leads (p.busy.trans hb) p.upc⟩
    · exact .inl ⟨p.busy.trans hb, p.upc, p.ph, by omega⟩
  · exact .inr ⟨by simp [hnil], (finish_transfer hu hr _).leads hb rfl⟩

/-! ### What a run costs (R189, R290) -/

/-- A duration in quarter cycles. -/
def durQuarters : Dur → Nat
  | .q => 1
  | .h => 2
  | .f => 4

theorem us_eq_quarters {p : Params} (hp : p.legal = true) (d : Dur) :
    p.us d = durQuarters d * p.us .q := by
  have hdiv := legalPeriodDividesExactly.1 p hp
  cases d <;> simp only [durQuarters] <;> omega

/-- The quarter cycles a primitive takes. -/
def Micro.quarters : Micro → Nat
  | .delay d => durQuarters d
  | .setDir _ _ | .setLvl _ _ | .sendBit _ | .getLvl _ | .keepFirst _ | .takeBit _ _ => 0

/-- The quarter cycles a list of primitives takes. -/
def quartersOf (ms : List Micro) : Nat := (ms.map Micro.quarters).sum

theorem elapsed_actsOf {p : Params} (hp : p.legal = true) (txb : Byte) (a : Nat → Level)
    (ms : List Micro) : elapsed (actsOf p txb a ms) = quartersOf ms * p.us .q := by
  induction ms generalizing a with
  | nil => simp [actsOf, elapsed, quartersOf]
  | cons m ms ih =>
    cases m with
    | delay d =>
      simp only [actsOf, Micro.act, elapsed, ih, us_eq_quarters hp d, quartersOf, List.map_cons,
        List.sum_cons, Micro.quarters, Nat.add_mul]
    | _ => simpa [actsOf, Micro.act, elapsed, quartersOf, Micro.quarters] using ih _

theorem samples_append (a b : List Event) : samples (a ++ b) = samples a + samples b :=
  List.countP_append

theorem samples_stamped_actsOf (p : Params) (txb : Byte) (a : Nat → Level) (t : Nat)
    (ms : List Micro) : samples (stamped t (actsOf p txb a ms)) = takesOf ms := by
  induction ms generalizing a t with
  | nil => rfl
  | cons m ms ih =>
    have hhead : samples [⟨t, m.act p txb (a 0)⟩] = m.takes := by cases m <;> rfl
    rw [actsOf, stamped_cons, ← List.singleton_append, samples_append, hhead, ih, takesOf]

theorem length_actsOf (p : Params) (txb : Byte) (a : Nat → Level) (ms : List Micro) :
    (actsOf p txb a ms).length = ms.length := by
  induction ms generalizing a with
  | nil => rfl
  | cons m ms ih => rw [actsOf, List.length_cons, ih, List.length_cons]

/-- Samples, primitives and quarter cycles, as `runLengths` counts them. -/
abbrev Cost := Nat × Nat × Nat

/-- What a list of primitives costs. -/
def costOf (ms : List Micro) : Cost := (takesOf ms, ms.length, quartersOf ms)

/-- From `s` to `t` the engine has spent `c`. -/
structure Spent (c : Cost) (s t : State) : Prop where
  cfg : t.cfg = s.cfg
  asked : t.asked = s.asked + c.1
  samples : samples t.tr = samples s.tr + c.1
  primitives : t.tr.length = s.tr.length + c.2.1
  time : t.now = s.now + c.2.2 * s.cfg.us .q

theorem spent_zero {s t : State} (hcfg : t.cfg = s.cfg) (hasked : t.asked = s.asked)
    (htr : t.tr = s.tr) (hnow : t.now = s.now) : Spent 0 s t where
  cfg := hcfg
  asked := hasked
  samples := congrArg Machine.samples htr
  primitives := congrArg List.length htr
  time := hnow.trans (by simp)

theorem Spent.trans {c d : Cost} {s t u : State} (h : Spent c s t) (h' : Spent d t u) :
    Spent (c + d) s u where
  cfg := h'.cfg.trans h.cfg
  asked := by rw [h'.asked, h.asked, Nat.add_assoc]; rfl
  samples := by rw [h'.samples, h.samples, Nat.add_assoc]; rfl
  primitives := by rw [h'.primitives, h.primitives, Nat.add_assoc]; rfl
  time := by rw [h'.time, h.time, h.cfg, Nat.add_assoc, ← Nat.add_mul]; rfl

theorem spent_afterAll {s : State} (hl : s.cfg.legal = true) (ms : List Micro) :
    Spent (costOf ms) s (afterAll ms s) where
  cfg := rfl
  asked := rfl
  samples := (samples_append _ _).trans (by rw [samples_stamped_actsOf]; rfl)
  primitives := List.length_append.trans (by rw [stamped_length, length_actsOf]; rfl)
  time := congrArg (s.now + ·) (elapsed_actsOf hl _ _ _)

/-- A control transfer takes no time, records nothing and takes no sample. -/
theorem Transfer.spent {u : BitVec 5} {s t : State} (h : Transfer u s t) : Spent 0 s t := by
  cases h with
  | sequential h | idle h | busBusy h | noAck h | accepted h | rejected h | failed h =>
    subst h; exact spent_zero rfl rfl rfl rfl

theorem Transfer.level {u : BitVec 5} {s t : State} (h : Transfer u s t) (j : Nat) :
    t.level j = s.level j := by
  cases h with
  | sequential h | idle h | busBusy h | noAck h | accepted h | rejected h | failed h =>
    subst h; rfl

/-! ### An entry of an undisturbed transaction -/

/-- A state of the invariant with a legal configuration and nothing scheduled. -/
structure Undisturbed (s : State) : Prop where
  inv : Inv s
  legal : s.cfg.legal = true
  quiet : s.inputs = []

theorem Undisturbed.step_eq {s : State} (h : Undisturbed s) : step s = engine s := by
  rw [step_of_boundary h.legal h.inv.slot, boundary_nil h.quiet]

theorem Undisturbed.next {s t : State} (h : Undisturbed s) (hs : step s = .next t) :
    Undisturbed t where
  inv := everyStepKeepsTheInvariant s t h.inv hs
  legal := (step_cfg hs).symm ▸ h.legal
  quiet := List.suffix_nil.mp (h.quiet ▸ step_inputs_suffix hs)

/-- Idle, the engine waits, however long. -/
theorem Undisturbed.iterate_of_idle {s : State} (h : Undisturbed s) (hb : s.busy = false) (n : Nat) :
    iterate step n s = .next s := by
  induction n with
  | zero => rfl
  | succ n ih => rw [iterate, h.step_eq, engine_of_idle hb, andThen_next, ih]

/-- Where control goes after the entry at `u`, the answers to come being `a`. -/
def nextOf (u : BitVec 5) (a : Nat → Level) : Option (BitVec 5) :=
  if u = 0#5 then if a 0 && a 1 then some 1#5 else none
  else if u = 3#5 ∨ u = 5#5 ∨ u = 8#5 then some (if a 0 then 22#5 else u + 1#5)
  else if u = 21#5 ∨ u = 25#5 then none
  else some (u + 1#5)

/-- Control is at the start of the entry given, or the transaction has ended where none is. -/
def At (v : Option (BitVec 5)) (s : State) : Prop :=
  v.elim (s.busy = false) fun u => s.busy = true ∧ s.ph = 0#6 ∧ s.upc = u

theorem at_idlechk {s : State} (hb : s.busy = true) :
    At (nextOf 0#5 s.level) (idlechkRoutine.finish (afterAll idlechkRoutine.body s)) := by
  have htest : (afterAll idlechkRoutine.body s).busIdle = (s.level 0 && s.level 1) := rfl
  have hfinish : idlechkRoutine.finish (afterAll idlechkRoutine.body s) = if _ then _ else _ := rfl
  rw [hfinish, htest, nextOf, if_pos rfl]
  split
  · exact ⟨hb, rfl, rfl⟩
  · rfl

theorem at_ackw {s : State} (hb : s.busy = true) (hu : s.upc = 3#5 ∨ s.upc = 5#5 ∨ s.upc = 8#5) :
    At (nextOf s.upc s.level) (ackwRoutine.finish (afterAll ackwRoutine.body s)) := by
  have hsamp : (afterAll ackwRoutine.body s).samp = s.level 0 := rfl
  have hfinish : ackwRoutine.finish (afterAll ackwRoutine.body s) = if _ then _ else _ := rfl
  have h0 : s.upc ≠ 0#5 := by obtain h | h | h := hu <;> simp [h]
  rw [hfinish, hsamp, nextOf, if_neg h0, if_pos hu]
  cases s.level 0 <;> exact ⟨hb, rfl, rfl⟩

/-- The entries that neither test nor branch. -/
theorem Transfer.at_next {u : BitVec 5} {s t : State} (h : Transfer u s t) (hb : s.busy = true)
    (hu : s.upc = u) (h0 : u ≠ 0#5) (hack : ¬(u = 3#5 ∨ u = 5#5 ∨ u = 8#5)) (a : Nat → Level) :
    At (nextOf u a) t := by
  rw [nextOf, if_neg h0, if_neg hack]
  cases h with
  | idle _ hu0 | busBusy _ hu0 => exact absurd hu0 h0
  | noAck _ hwait => exact absurd hwait hack
  | sequential ht h21 h25 =>
    subst ht
    rw [if_neg (not_or.mpr ⟨h21, h25⟩)]
    exact ⟨hb, rfl, congrArg (· + 1#5) hu⟩
  | accepted ht h21 | rejected ht h21 => subst ht; rw [if_pos (.inl h21)]; rfl
  | failed ht h25 => subst ht; rw [if_pos (.inr h25)]; rfl

/-- What the entry does before its control transfer, in closed form. -/
theorem Running.engine_eq {s : State} (h : Running s) (hb : s.busy = true) (h0 : s.ph = 0#6) :
    ∃ r b, (entryAt s.upc).bind routineOf = some r ∧ entryBody s.upc = r.body ∧
      engine s = .next (r.finish (afterAll r.body { s with txb := b })) := by
  obtain ⟨r, hr, hengine⟩ := engine_of_start hb h h0
  obtain ⟨b, hload⟩ := Routine.entered_eq_txb h.entry hr
  rw [Routine.entered_of_start h0] at hload
  exact ⟨r, b, hr, entryBody_of_routine hr, hload ▸ hengine⟩

/-- The transfer of an entry goes where its samples say. -/
theorem at_nextOf {s : State} {r : Routine} (hu : s.upc.toNat < 26) (hb : s.busy = true)
    (hr : (entryAt s.upc).bind routineOf = some r) :
    At (nextOf s.upc s.level) (r.finish (afterAll r.body s)) := by
  have is_routine : ∀ {v : BitVec 5} {r'}, s.upc = v → (entryAt v).bind routineOf = some r' → r = r' :=
    fun hv hr' => Option.some.inj (hr.symm.trans (hv ▸ hr'))
  by_cases h0 : s.upc = 0#5
  · rw [is_routine h0 (r' := idlechkRoutine) rfl, h0]
    exact at_idlechk hb
  by_cases hack : s.upc = 3#5 ∨ s.upc = 5#5 ∨ s.upc = 8#5
  · have hackw : r = ackwRoutine := by
      obtain h | h | h := hack <;> exact is_routine h rfl
    exact hackw ▸ at_ackw hb hack
  · exact (finish_transfer hu hr (afterAll r.body s)).at_next hb rfl h0 hack s.level

/-- An entry of an undisturbed transaction: what it costs, what answers it leaves, where control goes. -/
theorem Undisturbed.entry {s : State} (h : Undisturbed s) (hb : s.busy = true) (h0 : s.ph = 0#6) :
    ∃ t, step s = .next t ∧ Spent (costOf (entryBody s.upc)) s t ∧
      t.level = (fun j => s.level (j + takesOf (entryBody s.upc))) ∧
      At (nextOf s.upc s.level) t := by
  have hrun := h.inv.running hb
  obtain ⟨r, b, hr, hbody, hengine⟩ := hrun.engine_eq hb h0
  have htransfer := finish_transfer hrun.entry hr (afterAll r.body { s with txb := b })
  have hspent := (spent_afterAll (s := { s with txb := b }) h.legal r.body).trans htransfer.spent
  rw [hbody]
  refine ⟨_, h.step_eq.trans hengine, { hspent with }, funext fun j => ?_, ?_⟩
  · rw [htransfer.level, afterAll_level]; rfl
  · exact at_nextOf (s := { s with txb := b }) hrun.entry hb hr

/-! ### A run (R189, R290) -/

/-- What `n` entries cost from the one at `u` on, the answers to come being `a`; after the end of the
transaction nothing is spent. -/
def costFrom : Nat → BitVec 5 → (Nat → Level) → Cost
  | 0, _, _ => 0
  | n + 1, u, a => costOf (entryBody u) +
      (nextOf u a).elim 0 fun v => costFrom n v fun j => a (j + takesOf (entryBody u))

theorem Undisturbed.iterate_spends {n : Nat} {s : State} (h : Undisturbed s) (hb : s.busy = true)
    (h0 : s.ph = 0#6) :
    ∃ t, iterate step n s = .next t ∧ Spent (costFrom n s.upc s.level) s t := by
  induction n generalizing s with
  | zero => exact ⟨s, rfl, spent_zero rfl rfl rfl rfl⟩
  | succ n ih =>
    obtain ⟨u, hu, hspent, hlevel, hat⟩ := h.entry hb h0
    rw [iterate, hu, andThen_next, costFrom]
    cases hnext : nextOf s.upc s.level with
    | none =>
      rw [hnext] at hat
      exact ⟨u, (h.next hu).iterate_of_idle hat n, hspent⟩
    | some v =>
      rw [hnext] at hat
      obtain ⟨hbu, h0u, hupc⟩ := hat
      obtain ⟨t, ht, hrest⟩ := ih (h.next hu) hbu h0u
      rw [hupc, hlevel] at hrest
      exact ⟨t, ht, hspent.trans hrest⟩

/-- The abort tail, entries 22 to 25. -/
theorem costFrom_abortTail (n : Nat) (a : Nat → Level) : costFrom (n + 4) 22#5 a = (0, 17, 10) := rfl

/-- A byte received and acknowledged, for the four payload bytes: the entry it begins at and the one
that follows. -/
theorem costFrom_payloadByte {u v : BitVec 5}
    (h : (u, v) ∈ [(9#5, 11#5), (11#5, 13#5), (13#5, 15#5), (15#5, 17#5)]) (n : Nat) (a : Nat → Level) :
    costFrom (n + 2) u a = (8, 50, 32) + ((0, 7, 4) + costFrom n v fun j => a (j + 8)) := by
  simp only [List.mem_cons, List.not_mem_nil, or_false, Prod.mk.injEq] at h
  obtain ⟨rfl, rfl⟩ | ⟨rfl, rfl⟩ | ⟨rfl, rfl⟩ | ⟨rfl, rfl⟩ := h <;> rfl

/-- The checksum byte, the stop condition, the release and the check, entries 17 to 21. -/
theorem costFrom_checksumByte (n : Nat) (a : Nat → Level) : costFrom (n + 5) 17#5 a = (8, 67, 42) := rfl

/-- The five bytes received and what ends the transaction, entries 9 to 21. -/
theorem costFrom_reading (n : Nat) (a : Nat → Level) : costFrom (n + 13) 9#5 a = (40, 295, 186) := by
  rw [costFrom_payloadByte (v := 11#5) (by decide), costFrom_payloadByte (v := 13#5) (by decide),
    costFrom_payloadByte (v := 15#5) (by decide), costFrom_payloadByte (v := 17#5) (by decide),
    costFrom_checksumByte]
  rfl

/-- The third address phase: repeated start, `ADDR_R` and its acknowledge. -/
theorem costFrom_thirdByte (n : Nat) (a : Nat → Level) :
    costFrom (n + 16) 6#5 a = if a 0 then (1, 82, 52) else (41, 360, 228) := by
  have hack : costFrom (n + 16) 6#5 a = (0, 8, 6) + ((0, 50, 32) + ((1, 7, 4) +
      costFrom (n + 13) (if a 0 then 22#5 else 9#5) fun j => a (j + 1))) := rfl
  rw [hack]
  cases a 0
  · rw [if_neg Bool.false_ne_true, costFrom_reading]; rfl
  · rw [if_pos rfl, costFrom_abortTail]; rfl

/-- The register pointer and its acknowledge. -/
theorem costFrom_secondByte (n : Nat) (a : Nat → Level) :
    costFrom (n + 18) 4#5 a =
      if a 0 then (1, 74, 46) else if a 1 then (2, 139, 88) else (42, 417, 264) := by
  have hack : costFrom (n + 18) 4#5 a = (0, 50, 32) + ((1, 7, 4) +
      costFrom (n + 16) (if a 0 then 22#5 else 6#5) fun j => a (j + 1)) := rfl
  rw [hack]
  cases a 0
  · rw [if_neg Bool.false_ne_true, costFrom_thirdByte]
    cases a 1 <;> rfl
  · rw [if_pos rfl, costFrom_abortTail]; rfl

/-- The start condition, `ADDR_W` and its acknowledge. -/
theorem costFrom_firstByte (n : Nat) (a : Nat → Level) :
    costFrom (n + 21) 1#5 a =
      if a 0 then (1, 78, 48) else if a 1 then (2, 135, 84)
      else if a 2 then (3, 200, 126) else (43, 478, 302) := by
  have hack : costFrom (n + 21) 1#5 a = (0, 4, 2) + ((0, 50, 32) + ((1, 7, 4) +
      costFrom (n + 18) (if a 0 then 22#5 else 4#5) fun j => a (j + 1))) := rfl
  rw [hack]
  cases a 0
  · rw [if_neg Bool.false_ne_true, costFrom_secondByte]
    cases a 1
    · cases a 2 <;> rfl
    · rfl
  · rw [if_pos rfl, costFrom_abortTail]; rfl

/-- The idle check: two samples, and the rest of the run only if both are high. -/
theorem costFrom_idleCheck (n : Nat) (a : Nat → Level) :
    costFrom (n + 1) 0#5 a =
      (2, 2, 0) + if a 0 && a 1 then costFrom n 1#5 fun j => a (j + 2) else 0 := by
  rw [costFrom, nextOf, if_pos rfl]
  split <;> rfl

/-- R189's table is the sum over the entries of each kind of run. -/
theorem costFrom_start (a : Nat → Level) : costFrom 22 0#5 a = runLengths a := by
  rw [costFrom_idleCheck, costFrom_firstByte 0, runLengths]
  cases a 0 with
  | false => rfl
  | true =>
    cases a 1 with
    | false => rfl
    | true =>
      cases a 2 with
      | true => rfl
      | false =>
        cases a 3 with
        | true => rfl
        | false => cases a 4 <;> rfl

/-- `READ` with the lines acquired starts an undisturbed transaction whose answers are those to come. -/
theorem Undisturbed.read {s : State} (h : Undisturbed s) (hb : s.busy = false) (ha : s.acq = true) :
    exec .read s = .next s.accept.beginTransaction ∧ Undisturbed s.accept.beginTransaction := by
  have hexec : exec .read s = .next s.accept.beginTransaction :=
    (command_of_idle hb fun t => if t.acq then t.beginTransaction else t.complete .notAcquired).trans
      (congrArg Host.Outcome.next (if_pos ha))
  exact ⟨hexec, (h.inv.accept hb).inv_beginTransaction ha, h.legal, h.quiet⟩

/-- Settles O57: the run is its entries one after another, up to the one that ends it. -/
theorem lengthsOfTheFiveRuns : Obligations.LengthsOfTheFiveRuns := by
  intro s hi hl hb ha hin
  obtain ⟨hread, hstart⟩ := Undisturbed.read ⟨hi, hl, hin⟩ hb ha
  obtain ⟨t, hrun, hspent⟩ := hstart.iterate_spends (n := 22) rfl rfl
  have hcost : costFrom 22 s.accept.beginTransaction.upc s.accept.beginTransaction.level =
      runLengths s.level := costFrom_start s.level
  rw [hcost] at hspent
  refine ⟨_, t, hread, (core_run_eq_iterate 22 _).trans hrun, hspent.asked, ?_, ?_, ?_⟩
  · exact hspent.samples.trans (Nat.zero_add _)
  · exact hspent.primitives.trans (Nat.zero_add _)
  · exact hspent.time.trans (Nat.zero_add _)

/-! ### The abort tail (R178, R243) -/

/-- The transaction is at an entry of the abort tail, or has ended with AckTimeout. -/
def TimedOut (s : State) : Prop :=
  s.busy = true ∧ s.ph = 0#6 ∧ 22 ≤ s.upc.toNat ∨
    s.busy = false ∧ s.err = .ackTimeout ∧ s.rx = .zero

theorem Transfer.timedOut {u : BitVec 5} {s t : State} (h : Transfer u s t) (hb : s.busy = true)
    (hu : s.upc = u) (h22 : 22 ≤ u.toNat) (h26 : u.toNat < 26) (hp : s.errPend = .ackTimeout) :
    TimedOut t := by
  cases h with
  | sequential ht h21 h25 =>
    subst ht
    refine .inl ⟨hb, rfl, ?_⟩
    rw [State.nextEntry_upc, hu]
    bv_omega
  | failed ht => subst ht; exact .inr ⟨rfl, hp, by rw [State.endTransaction_rx, hp]; rfl⟩
  | noAck ht => subst ht; exact .inl ⟨hb, rfl, (by decide : 22 ≤ (22#5).toNat)⟩
  | idle _ hu | busBusy _ hu | accepted _ hu | rejected _ hu =>
    rw [hu] at h22; exact absurd h22 (by decide)

/-- Undisturbed, a transaction stays in the abort tail until it has ended with AckTimeout. -/
theorem Undisturbed.timedOut {s t : State} (h : Undisturbed s) (hs : TimedOut s)
    (hstep : step s = .next t) : TimedOut t := by
  rw [h.step_eq] at hstep
  obtain ⟨hb, h0, h22⟩ | ⟨hb, hend⟩ := hs
  · have hrun := h.inv.running hb
    obtain ⟨r, b, hr, -, hengine⟩ := hrun.engine_eq hb h0
    rw [hengine] at hstep
    cases hstep
    exact (finish_transfer hrun.entry hr _).timedOut hb rfl h22 hrun.entry
      (hrun.pending.trans (if_pos h22))
  · rw [engine_of_idle hb] at hstep
    cases hstep
    exact .inr ⟨hb, hend⟩

/-- Settles O59: the four entries of the tail, their cost, and the idle state they end in. -/
theorem abortTailReportsAckTimeout : Obligations.AbortTailReportsAckTimeout := by
  intro s hi hl hb hu h0 hin
  have hs : Undisturbed s := ⟨hi, hl, hin⟩
  obtain ⟨t, ht, hbusy, hdone⟩ := iterate_step_ends (n := 4) hi hl hin (.inr ⟨hb, h0, by rw [hu]; rfl⟩)
  obtain ⟨t', ht', hspent⟩ := hs.iterate_spends (n := 4) hb h0
  obtain rfl : t = t' := Host.Outcome.next.inj (ht.symm.trans ht')
  obtain ⟨hundisturbed, hout⟩ := iterate_keeps (P := fun v => Undisturbed v ∧ TimedOut v)
    (fun _ _ hv hstep => ⟨hv.1.next hstep, hv.1.timedOut hv.2 hstep⟩)
    ⟨hs, .inl ⟨hb, h0, by rw [hu]; decide⟩⟩ ht
  obtain ⟨herr, hrx⟩ := (hout.resolve_left fun hno => by simp [hbusy] at hno).2
  have hidle := hundisturbed.inv.idle hbusy
  rw [hu, costFrom_abortTail 0] at hspent
  exact ⟨t, (core_run_eq_iterate 4 s).trans ht, hbusy, hdone, herr, hidle.scl, hidle.sda, hrx,
    hspent.asked, hspent.time⟩

end Sys2Proof.Machine
end

section
/-!
PROOFS. The family of `43_checksum_and_reading.md`: the bit insertion that assembles a byte, the checksum
law as arithmetic of naturals and of bytes, and the operation that publishes or discards a Reading by it.
-/

namespace Sys2Proof.Machine

/-! ### Bit insertion (R206) -/

/-- Settles O8, bit by bit. -/
theorem insertBitSetsOneBitOnly : Obligations.InsertBitSetsOneBitOnly :=
  fun b n v _ hm => getLsbD_insertBit b n v hm

/-! ### The checksum law (R201) -/

/-- The sum as a natural. -/
theorem FiveBytes.toNat_sum (r : FiveBytes) :
    r.sum.toNat = (r.b0.toNat + r.b1.toNat + r.b2.toNat + r.b3.toNat) % 256 := by
  simp [FiveBytes.sum]

/-- The carries out of a byte, dropped at each addition or once at the end, are the same. -/
theorem FiveBytes.sum_eq_add (r : FiveBytes) : r.sum = r.b0 + r.b1 + r.b2 + r.b3 := by
  refine BitVec.eq_of_toNat_eq ?_
  rw [r.toNat_sum]
  simp only [BitVec.toNat_add]
  omega

theorem FiveBytes.accepted_iff (r : FiveBytes) : r.accepted = true ↔
    r.b4.toNat = (r.b0.toNat + r.b1.toNat + r.b2.toNat + r.b3.toNat) % 256 := by
  rw [FiveBytes.accepted, decide_eq_true_iff, ← r.toNat_sum, BitVec.toNat_inj]

/-- Settles O9: the validator compares bytes, and a byte is its natural value. -/
theorem checksumLaw : Obligations.ChecksumLaw := fun r => ⟨r.accepted_iff, r.sum_eq_add⟩

/-! ### `VALIDATE` (R200, R203, R204) -/

/-- `VALIDATE` has no primitive, so it is its control transfer alone. -/
theorem exec_validate (s : State) : exec .validate s = .next (validateRoutine.finish s) := rfl

theorem validate_finish_of_accepted {s : State} (h : s.rx.accepted = true) :
    validateRoutine.finish s = State.endTransaction { s with rd := s.rx, valid := true } .none :=
  if_pos h

theorem validate_finish_of_rejected {s : State} (h : ¬ s.rx.accepted = true) :
    validateRoutine.finish s = s.endTransaction .checksumMismatch :=
  if_neg h

/-- Settles O27: the transaction ends on either side of the checksum law, with the Reading published
where it holds and the sampled bytes discarded where it fails. -/
theorem validateGatesTheReading : Obligations.ValidateGatesTheReading := by
  intro s t ht
  refine ⟨bitnOf 0#6, ?_⟩
  rw [exec_validate, ht]
  split
  · next law => rw [validate_finish_of_accepted (s.rx.accepted_iff.mpr law)]; rfl
  · next broken => rw [validate_finish_of_rejected (mt s.rx.accepted_iff.mp broken)]; rfl

end Sys2Proof.Machine
end

section
/-!
PROOFS. The family of `44_host_commands.md`: what each command byte does, idle and busy; that nothing but
the next command or the reset input touches a result; and the call view of `READ`, R228, as what the
entries of a transaction make of the environment's answers one after another.
-/

namespace Sys2Proof.Machine

/-! ### Commands accepted (R216 to R225) -/

theorem exec_acquire (s : State) : exec .acquire s = command (fun t =>
    State.complete { t with scl := .released, sda := .released, acq := true } .none) s := rfl

theorem exec_release (s : State) : exec .release s = command (fun t =>
    State.complete { t.releaseLines with acq := false } .none) s := rfl

theorem exec_read (s : State) : exec .read s = command (fun t =>
    if t.acq then t.beginTransaction else t.complete .notAcquired) s := rfl

theorem exec_write (s : State) : exec .write s =
    command (fun t => t.complete .unsupportedOperation) s := rfl

/-- Settles O29: the acceptance, then `ACQUIRE`'s effect. -/
theorem acquireSetsAcq : Obligations.AcquireSetsAcq := by
  intro s hb
  rw [exec_acquire, command_of_idle hb]
  rfl

/-- Settles O30: the acceptance, then `RELEASE`'s effect, or neither. -/
theorem releaseClearsAcq : Obligations.ReleaseClearsAcq := by
  intro s
  rw [exec_release]
  exact ⟨fun hb => command_of_idle hb _, fun hb => command_of_busy hb _⟩

theorem exec_read_of_acquired {s : State} (hb : s.busy = false) (ha : s.acq = true) :
    exec .read s = .next s.accept.beginTransaction := by
  rw [exec_read, command_of_idle hb, State.accept_acq, if_pos ha]

theorem exec_read_of_not_acquired {s : State} (hb : s.busy = false) (ha : s.acq = false) :
    exec .read s = .next (s.accept.complete .notAcquired) := by
  rw [exec_read, command_of_idle hb, State.accept_acq, if_neg (ne_true_of_eq_false ha)]

/-- Settles O31: `bitn` is that of phase 0. -/
theorem readStartsATransaction : Obligations.ReadStartsATransaction :=
  fun _ hb ha => ⟨bitnOf 0#6, exec_read_of_acquired hb ha⟩

/-- Settles O32: `READ` takes its other branch, which starts nothing. -/
theorem readWithoutAcquisitionIsNotAcquired : Obligations.ReadWithoutAcquisitionIsNotAcquired :=
  fun _ hb ha => exec_read_of_not_acquired hb ha

/-- Settles O33: `WRITE`'s effect does not look at `ACQ`. -/
theorem writeIsUnsupported : Obligations.WriteIsUnsupported := by
  intro s hb
  rw [exec_write, command_of_idle hb]
  rfl

/-- R93: 0x00 and the bytes from 0x05 on. -/
theorem decodeHost_of_reserved {v : Byte} (h : v = 0x00#8 ∨ 5 ≤ v.toNat) :
    decodeHost v = .error .reservedCommand := by
  have hno : ∀ c ∈ [0x01#8, 0x02#8, 0x03#8, 0x04#8], ¬(c = 0x00#8 ∨ 5 ≤ c.toNat) := by decide
  have hne : ∀ c ∈ [0x01#8, 0x02#8, 0x03#8, 0x04#8], v ≠ c := fun c hc hv => hno c hc (hv ▸ h)
  simp only [List.forall_mem_cons, List.not_mem_nil, false_implies, implies_true, and_true] at hne
  obtain ⟨h1, h2, h3, h4⟩ := hne
  simp only [decodeHost, h1, h2, h3, h4, if_false]

theorem hostAccess_write_cmd (v : Byte) (s : State) :
    hostAccess (.write 0 1 v) s = hostCommand v s := rfl

theorem hostCommand_of_reserved {v : Byte} (h : decodeHost v = .error .reservedCommand) (s : State) :
    hostCommand v s = illegalCommand s := by
  rw [hostCommand, h]

/-- Settles O34: a byte that decodes to no command is accepted all the same. -/
theorem reservedCommandIsIllegal : Obligations.ReservedCommandIsIllegal := by
  intro s v hb hv
  rw [hostAccess_write_cmd, hostCommand_of_reserved (decodeHost_of_reserved hv), illegalCommand,
    command_of_idle hb]
  rfl

/-! ### Commands dropped (R226) -/

/-- Settles O35: the four commands are what four of the bytes written to `CMD` decode to. -/
theorem commandWhileBusyIsDropped : Obligations.CommandWhileBusyIsDropped := by
  intro s hb
  have hdropped : ∀ v, hostAccess (.write 0 1 v) s = .next s := hostCommand_of_busy hb
  have hexec : ∀ v i, decodeHost v = .ok i → exec i s = .next s := fun v i hi =>
    (hostAccess_of_decode hi s).symm.trans (hdropped v)
  exact ⟨hdropped, hexec 0x01#8 _ rfl, hexec 0x02#8 _ rfl, hexec 0x03#8 _ rfl, hexec 0x04#8 _ rfl⟩

/-! ### Between two commands (R227) -/

/-- What the host can read depends on the registers only, not on the environment's side. -/
theorem State.window_with_host (s : State) (is : List Input) (rs : List Byte) (a : Nat) :
    State.window { s with inputs := is, replies := rs } a = s.window a := rfl

/-- An access that is no command byte reads, or writes an ignored offset. -/
theorem hostAccess_next_of_no_command {a : Access} {s t : State} (ha : ∀ v, a ≠ .write 0 1 v)
    (h : hostAccess a s = .next t) : t = { s with replies := t.replies } := by
  obtain ⟨n, -, -, rfl⟩ | ⟨n, v, -, -, -, rfl⟩ | ⟨v, hv, -⟩ := hostAccess_next h
  · rfl
  · rfl
  · exact absurd hv (ha v)

/-- All that a step of an idle engine can do when it serves neither a command byte nor reset. -/
theorem step_next_of_idle {s t : State} (hslot : s.slot = none) (hb : s.busy = false)
    (h : step s = .next t)
    (hcmd : ∀ v rest, s.inputs ≠ .hostNow (.write 0 1 v) :: rest ∧
      s.inputs ≠ .hostWhenIdle (.write 0 1 v) :: rest)
    (hrst : ∀ rest, s.inputs ≠ .reset :: rest) :
    t = { s with inputs := t.inputs, replies := t.replies } := by
  obtain ⟨-, ⟨w, hw, -⟩ | ⟨-, ⟨-, h⟩ | ⟨rest, hin, -⟩ | ⟨rest, -, h⟩ | ⟨a, rest, hin, h⟩ |
    ⟨a, rest, -, hbusy, -⟩ | ⟨a, rest, hin, -, h⟩⟩⟩ := step_next h
  case inl => cases hslot.symm.trans hw
  · rw [engine_of_idle hb] at h
    cases h
    rfl
  · exact absurd hin (hrst rest)
  · rw [enginePrimitive_of_idle (s := { s with inputs := rest }) hb] at h
    cases h
    rfl
  · rw [hostAccess_next_of_no_command (fun v hv => (hcmd v rest).1 (hv ▸ hin)) h]
  · cases hb.symm.trans hbusy
  · rw [hostAccess_next_of_no_command (fun v hv => (hcmd v rest).2 (hv ▸ hin)) h]

/-- Settles O54: such a step moves the schedule and the host's replies only. -/
theorem resultStaysUntilTheNextCommand : Obligations.ResultStaysUntilTheNextCommand := by
  intro s t hslot hb h hcmd hrst
  have ht := step_next_of_idle hslot hb h hcmd hrst
  refine ⟨ht, fun a => ?_⟩
  rw [ht]
  exact s.window_with_host t.inputs t.replies a

/-! ### How a transaction ends (R215, R248) -/

/-- What the host is told by a transaction that ends at the entry `u` with `r` received. -/
def endView (u : BitVec 5) (r : FiveBytes) : CallResult :=
  if u = 0#5 then .failed .busBusy
  else if u = 21#5 then if r.accepted then .reading r else .failed .checksumMismatch
  else .failed .ackTimeout

theorem State.callResult_of_running {s : State} (h : s.done = false) : s.callResult = .running :=
  if_pos h

theorem State.callResult_endTransaction_error (s : State) {e : Err} (he : e ≠ .none) :
    (s.endTransaction e).callResult = .failed e := by
  simp [State.callResult, he]

theorem State.callResult_endTransaction_reading (s : State) :
    (State.endTransaction { s with rd := s.rx, valid := true } .none).callResult = .reading s.rx := rfl

/-- A control transfer that ends the transaction tells the host what its entry is there to tell. -/
theorem Transfer.callResult {u : BitVec 5} {s t : State} (h : Transfer u s t) (hb : s.busy = true)
    (hp : s.errPend = if 22 ≤ u.toNat then .ackTimeout else .none) (ht : t.busy = false) :
    t.callResult = endView u s.rx := by
  cases h with
  | sequential h | idle h | noAck h => subst h; cases hb.symm.trans ht
  | busBusy h hu => subst h hu; exact s.callResult_endTransaction_error (by decide)
  | accepted h hu ha =>
    subst h hu
    exact s.callResult_endTransaction_reading.trans (if_pos ha).symm
  | rejected h hu ha =>
    subst h hu
    exact (s.callResult_endTransaction_error (by decide)).trans
      (if_neg (ne_true_of_eq_false ha)).symm
  | failed h hu =>
    subst h hu
    rw [hp]
    exact s.callResult_endTransaction_error (by decide)

/-- A control transfer inside the transaction leaves what was received. -/
theorem Transfer.rx {u : BitVec 5} {s t : State} (h : Transfer u s t) (ht : t.busy = true) :
    t.rx = s.rx := by
  cases h with
  | sequential h | idle h | noAck h => subst h; rfl
  | busBusy h | accepted h | rejected h | failed h => subst h; cases ht

/-- An entry of an undisturbed transaction: what it adds to the bytes received, and what the host is told
where it ends the transaction. -/
theorem Undisturbed.entry_received {s t : State} (h : Undisturbed s) (hb : s.busy = true)
    (h0 : s.ph = 0#6) (hstep : step s = .next t) :
    (t.busy = true → t.rx = rxAfter s.level (entryBody s.upc) s.rx) ∧
    (t.busy = false → t.callResult = endView s.upc (rxAfter s.level (entryBody s.upc) s.rx)) := by
  have hrun := h.inv.running hb
  obtain ⟨r, b, hr, hbody, hengine⟩ := hrun.engine_eq hb h0
  rw [h.step_eq, hengine] at hstep
  cases hstep
  rw [hbody]
  have htransfer := finish_transfer hrun.entry hr (afterAll r.body { s with txb := b })
  exact ⟨htransfer.rx, htransfer.callResult hb hrun.pending⟩

/-! ### What a run tells the host (R228) -/

/-- What the host is told after `n` entries from the one at `u` on, the answers to come being `a` and `r`
received so far. -/
def viewFrom : Nat → BitVec 5 → (Nat → Level) → FiveBytes → CallResult
  | 0, _, _, _ => .running
  | n + 1, u, a, r =>
    (nextOf u a).elim (endView u (rxAfter a (entryBody u) r)) fun v =>
      viewFrom n v (fun j => a (j + takesOf (entryBody u))) (rxAfter a (entryBody u) r)

/-- The machine's run tells the host what its entries make of the answers. -/
theorem Undisturbed.iterate_tells {n : Nat} {s t : State} (h : Undisturbed s) (hb : s.busy = true)
    (h0 : s.ph = 0#6) (hrun : iterate step n s = .next t) :
    t.callResult = viewFrom n s.upc s.level s.rx := by
  induction n generalizing s with
  | zero => cases hrun; exact State.callResult_of_running (h.inv.transacting hb).done
  | succ n ih =>
    obtain ⟨u, hu, -, hlevel, hat⟩ := h.entry hb h0
    obtain ⟨hrx, hresult⟩ := h.entry_received hb h0 hu
    rw [iterate, hu, andThen_next] at hrun
    rw [viewFrom]
    cases hnext : nextOf s.upc s.level with
    | none =>
      rw [hnext] at hat
      rw [(h.next hu).iterate_of_idle hat n] at hrun
      cases hrun
      exact hresult hat
    | some v =>
      rw [hnext] at hat
      obtain ⟨hbu, h0u, hupc⟩ := hat
      rw [ih (h.next hu) hbu h0u hrun, hupc, hlevel, hrx hbu]
      rfl

/-- The abort tail receives nothing. -/
theorem viewFrom_abortTail (n : Nat) (a : Nat → Level) (r : FiveBytes) :
    viewFrom (n + 4) 22#5 a r = .failed .ackTimeout := rfl

/-- A payload byte received and acknowledged: the entry it begins at, the one that follows, and the
register it fills. -/
theorem viewFrom_payloadByte {u v : BitVec 5} {k : Fin 5}
    (h : (u, v, k) ∈ [(9#5, 11#5, 0), (11#5, 13#5, 1), (13#5, 15#5, 2), (15#5, 17#5, 3)]) (n : Nat)
    (a : Nat → Level) (r : FiveBytes) :
    viewFrom (n + 2) u a r = viewFrom n v (fun j => a (j + 8)) (r.set k (byteFrom a 0)) := by
  have hrbyte : viewFrom (n + 2) u a r =
      viewFrom n v (fun j => a (j + 8)) (rxAfter a (rbyteBody k) r) := by
    simp only [List.mem_cons, List.not_mem_nil, or_false, Prod.mk.injEq] at h
    obtain ⟨rfl, rfl, rfl⟩ | ⟨rfl, rfl, rfl⟩ | ⟨rfl, rfl, rfl⟩ | ⟨rfl, rfl, rfl⟩ := h <;> rfl
  rw [hrbyte, rxAfter_rbyteBody]

/-- The checksum byte, and the check that ends the transaction, entries 17 to 21. -/
theorem viewFrom_checksumByte (n : Nat) (a : Nat → Level) (r : FiveBytes) :
    viewFrom (n + 5) 17#5 a r = endView 21#5 (r.set 4 (byteFrom a 0)) := by
  have hrbyte : viewFrom (n + 5) 17#5 a r = endView 21#5 (rxAfter a (rbyteBody 4) r) := rfl
  rw [hrbyte, rxAfter_rbyteBody]

/-- The five bytes received, entries 9 to 21: nothing is left of what the buffer held. -/
theorem viewFrom_reading (n : Nat) (a : Nat → Level) (r : FiveBytes) :
    viewFrom (n + 13) 9#5 a r = endView 21#5
      ⟨byteFrom a 0, byteFrom a 8, byteFrom a 16, byteFrom a 24, byteFrom a 32⟩ := by
  rw [viewFrom_payloadByte (v := 11#5) (k := 0) (by decide),
    viewFrom_payloadByte (v := 13#5) (k := 1) (by decide),
    viewFrom_payloadByte (v := 15#5) (k := 2) (by decide),
    viewFrom_payloadByte (v := 17#5) (k := 3) (by decide), viewFrom_checksumByte]
  rfl

/-- A byte sent and its acknowledge, for the three address phases: the number of entries, the one the
phase begins at and the one that follows. A high sample leads to the abort tail. -/
theorem viewFrom_sentByte {m : Nat} {u v : BitVec 5}
    (h : (m, u, v) ∈ [(3, 1#5, 4#5), (2, 4#5, 6#5), (3, 6#5, 9#5)]) (n : Nat) (a : Nat → Level)
    (r : FiveBytes) :
    viewFrom (n + 4 + m) u a r =
      if a 0 then .failed .ackTimeout else viewFrom (n + 4) v (fun j => a (j + 1)) r := by
  have hack : viewFrom (n + 4 + m) u a r =
      viewFrom (n + 4) (if a 0 then 22#5 else v) (fun j => a (j + 1)) r := by
    simp only [List.mem_cons, List.not_mem_nil, or_false, Prod.mk.injEq] at h
    obtain ⟨rfl, rfl, rfl⟩ | ⟨rfl, rfl, rfl⟩ | ⟨rfl, rfl, rfl⟩ := h <;> rfl
  rw [hack]
  split
  · exact viewFrom_abortTail n _ r
  · rfl

/-- The idle check: the run goes on only if both samples are high. -/
theorem viewFrom_idleCheck (n : Nat) (a : Nat → Level) (r : FiveBytes) :
    viewFrom (n + 1) 0#5 a r =
      if a 0 && a 1 then viewFrom n 1#5 (fun j => a (j + 2)) r else .failed .busBusy := by
  rw [viewFrom, nextOf, if_pos rfl]
  split <;> rfl

/-- The law on bytes that gates a Reading is the call view's law on naturals. -/
theorem endView_validate (r : FiveBytes) : endView 21#5 r =
    if r.b4.toNat = (r.b0.toNat + r.b1.toNat + r.b2.toNat + r.b3.toNat) % 256 then .reading r
    else .failed .checksumMismatch := by
  have hgate : endView 21#5 r =
      if r.accepted then .reading r else .failed .checksumMismatch := rfl
  rw [hgate]
  exact if_congr r.accepted_iff rfl rfl

/-- The entries one after another are the call view's cases in its order. -/
theorem viewFrom_start (a : Nat → Level) (r : FiveBytes) : viewFrom 22 0#5 a r = callView a := by
  rw [viewFrom_idleCheck, viewFrom_sentByte (m := 3) (v := 4#5) (by decide) 14,
    viewFrom_sentByte (m := 2) (v := 6#5) (by decide) 12,
    viewFrom_sentByte (m := 3) (v := 9#5) (by decide) 9, viewFrom_reading 0, endView_validate, callView]
  cases a 0 with
  | false => rfl
  | true =>
    cases a 1 with
    | false => rfl
    | true =>
      cases a 2 with
      | true => rfl
      | false =>
        cases a 3 with
        | true => rfl
        | false => cases a 4 <;> rfl

/-- Settles O56: the run from the start of the transaction ends, and tells the host what its entries make
of the answers. -/
theorem readAgreesWithTheCallView : Obligations.ReadAgreesWithTheCallView := by
  intro s hi hl hb ha hin
  obtain ⟨hread, hstart⟩ := Undisturbed.read ⟨hi, hl, hin⟩ hb ha
  obtain ⟨t, hrun, hend, -⟩ :=
    everyTransactionEnds s.accept.beginTransaction hstart.inv hl rfl rfl hin
  have htold := hstart.iterate_tells rfl rfl ((core_run_eq_iterate 22 _).symm.trans hrun)
  have hview : viewFrom 22 s.accept.beginTransaction.upc s.accept.beginTransaction.level
      s.accept.beginTransaction.rx = callView s.level := viewFrom_start s.level .zero
  exact ⟨_, t, hread, hrun, htold.trans hview, hend⟩

end Sys2Proof.Machine
end

section
/-!
PROOFS. The family of `60_exceptions.md`: the wait of an idle engine, R259, and a `READ` that finds the
bus busy, R242, as the start of a transaction followed by the failing branch of its idle check.
-/

namespace Sys2Proof.Machine

/-- Settles O39: the boundary is the engine's, and the idle engine waits. -/
theorem idleEngineWaits : Obligations.IdleEngineWaits := by
  intro s hl hslot hb hin
  rw [step_of_boundary hl hslot, boundary_nil hin, engine_of_idle hb]

/-- The directions the idle check needs are those of an idle engine's released lines, and one low sample
makes it end the transaction. -/
theorem Idle.exec_idlechk_of_low {s : State} (h : Idle s) (hlow : s.level 0 = false ∨ s.level 1 = false) :
    ∃ k, exec .idlechk s.accept.beginTransaction = .next { s.accept.beginTransaction with
      samp0 := s.level 0
      samp := s.level 1
      answers := s.answers.drop 2
      asked := s.asked + 2
      tr := [⟨0, .smp .scl (s.level 0)⟩, ⟨0, .smp .sda (s.level 1)⟩]
      err := .busBusy
      busy := false
      done := true
      bitn := k } := by
  have hscl : s.accept.beginTransaction.scl.dir = .input := congrArg Cell.dir h.scl
  have hsda : s.accept.beginTransaction.sda.dir = .input := congrArg Cell.dir h.sda
  have hnot : ¬ (s.level 0 = true ∧ s.level 1 = true) := by
    rintro ⟨h0, h1⟩
    simp [h0, h1] at hlow
  obtain ⟨k, hk⟩ := idlechkNeedsBothLinesHigh.1 _ _ hscl hsda rfl
  exact ⟨k, hk.trans (if_neg hnot)⟩

/-- Settles O58: what the start of the transaction sets and its end puts back, the sequencer and `BUSY`,
had those values in the idle state. -/
theorem busBusyTouchesNoLine : Obligations.BusBusyTouchesNoLine := by
  intro s hi hb ha hlow
  have hidle := hi.idle hb
  obtain ⟨k, hk⟩ := hidle.exec_idlechk_of_low hlow
  refine ⟨_, k, exec_read_of_acquired hb ha, hk.trans ?_⟩
  rw [hb, hidle.upc, hidle.ph, hidle.errPend]
  rfl

end Sys2Proof.Machine
end

section
/-!
PROOFS. The family of `70_reset_and_hazards.md`: the reset input, R270 and R272.
-/

namespace Sys2Proof.Machine

/-- With an empty slot, reset keeps of a state only the configuration, the environment and the
bookkeeping (log 9). -/
theorem State.rst_of_slot_none {s : State} (hslot : s.slot = none) :
    s.rst = { State.reset with
      cfg := s.cfg
      answers := s.answers
      asked := s.asked
      inputs := s.inputs
      replies := s.replies
      now := s.now
      tr := s.tr } := by
  rw [State.rst, hslot]
  rfl

/-- Settles O42: the boundary serves the reset input, and the bookkeeping left open is kept. -/
theorem resetInputResetsEverything : Obligations.ResetInputResetsEverything := by
  intro s rest hl hslot hin
  have hstep : step s = .next (State.rst { s with inputs := rest }) :=
    (step_of_boundary hl hslot).trans (boundary_reset hin)
  exact ⟨s.now, s.tr, hstep.trans (congrArg _ (State.rst_of_slot_none hslot))⟩

end Sys2Proof.Machine
end
